-- ==== Sys2Proof/Word.lean ====
section
/-! DEFINITION. The word types of the Kuznyechik CORE: bytes, bus words, blocks and keys (00_scope.md R10, R11). -/

namespace Sys2Proof

/-- "A byte is an unsigned 8-bit value 0..255" (R10); also an element of GF(2^8), bit i the coefficient of x^i (40_primitives.md R77). -/
abbrev Byte := BitVec 8

/-- A 32-bit bus word or command word, "numbered 31 down to 0" (R10). -/
abbrev Word := BitVec 32

/-- "A block is a sequence of 16 bytes B[0..15]" (R11). -/
abbrev Block := Vector Byte 16

/-- "A key is a sequence of 32 bytes K[0..31]" (R11). -/
abbrev Key := Vector Byte 32

/-- `0^16`, "the all-zero block" (R11). -/
def zeroBlock : Block := Vector.replicate 16 0

/-- 32 zero bytes, KEYBUF's reset value (10_state.md R16). -/
def zeroKey : Key := Vector.replicate 32 0

end Sys2Proof
end

