-- ==== Sys2Proof/Config.lean ====
section
/-! DEFINITION. What an implementation fixes: the fixed parameters of 00_scope.md R8 and the open parameters BASE and
BUSERR_RESPONSE of R9 (uninterpreted, no body). The latencies of R9 are arguments of Machine/Timed.lean. -/

namespace Sys2Proof.Config

/-- BLOCK_BYTES (R8). -/
def blockBytes : Nat := 16

/-- KEY_BYTES (R8). -/
def keyBytes : Nat := 32

/-- N_RK, the number of round keys (R8). -/
def roundKeys : Nat := 10

/-- N_FULL_ROUNDS: "9 full rounds, then one XOR-only round" (R8). -/
def fullRounds : Nat := 9

/-- N_CONST_GROUP: "8 Feistel iterations per derived key pair" (R8). -/
def constGroup : Nat := 8

/-- WINDOW: "256 bytes of host bus address space" (R8). -/
def windowBytes : Nat := 0x100

/-- BUS_WIDTH: "32-bit accesses only" (R8), in bits. -/
def busWidth : Nat := 32

/-- LEN field: "6 bits, 0..63" (R8). -/
def maxLen : Nat := 63

/-- BASE / 256. BASE is open (R9); any value is admitted, so no body is given. -/
opaque basePage : Nat

/-- BASE, the "host bus address of window offset 0x000", "aligned to 256 bytes" (R9): aligned by construction (log 7). -/
def base : Nat := windowBytes * basePage

/-- A name for what a platform's bus does on a refused access: the spec gives it no form, so it is only a number here. -/
abbrev BusErr := Nat

/-- BUSERR_RESPONSE: "what the host's bus does on an access the core refuses", "platform-defined" (R9). Uninterpreted; it may
depend on the access: whether it writes, its width in bits and its offset (log 3). -/
opaque busErrResponse (isWrite : Bool) (width offset : Nat) : BusErr

end Sys2Proof.Config
end

