-- ==== Sys2Proof/Syntax.lean ====
section
/-! DEFINITION. The six commands (30_encoding.md R66), one constructor for each row of spec/opcode_table.json. -/

namespace Sys2Proof

/-- A command with its one operand n = LEN, "an unsigned byte count with no scaling and no sign" (30_encoding.md R65). The data
operands are fixed buffers, so no register field exists. -/
inductive Instr where
  /-- KEY_INIT: `Construct(key)` (41_key_schedule.md R103). -/
  | keyInit (len : Nat)
  /-- ENC_BLOCK: `EncryptBlock(block)` (42_block_transform.md R111). -/
  | encBlock (len : Nat)
  /-- DEC_BLOCK: `DecryptBlock(block)` (42_block_transform.md R112). -/
  | decBlock (len : Nat)
  /-- CFB_INIT: `Construct(cipher, iv)` (43_cfb_mode.md R119). -/
  | cfbInit (len : Nat)
  /-- CFB_ENC: one chunk of `Encrypt(plaintext)` (43_cfb_mode.md R120). -/
  | cfbEnc (len : Nat)
  /-- CFB_DEC: one chunk of `Decrypt(ciphertext)` (43_cfb_mode.md R121). -/
  | cfbDec (len : Nat)
deriving DecidableEq, Repr

end Sys2Proof
end

