-- ==== Sys2Proof/WellFormed.lean ====
section
/-! DEFINITION. Which command terms a command word can hold: LEN is a 6-bit field (30_encoding.md R64, R65). -/

namespace Sys2Proof

/-- The operand n = LEN of a command (30_encoding.md R65). -/
def Instr.len : Instr → Nat
  | .keyInit n => n
  | .encBlock n => n
  | .decBlock n => n
  | .cfbInit n => n
  | .cfbEnc n => n
  | .cfbDec n => n

/-- The one check: "LEN 13:8 byte length of the operand the host supplies, 0..63" (30_encoding.md R64). A LEN the command does not
accept is still well formed: "A LEN outside a command's accepted set does not make the word illegal" (R66). -/
def Instr.wf (i : Instr) : Bool := decide (i.len ≤ Config.maxLen)

end Sys2Proof
end

