-- ==== Sys2Proof/Decode.lean ====
section
/-! DEFINITION. Command words to commands and back (30_encoding.md R63–R71). -/

namespace Sys2Proof

/-- OP, bits 3:0 (R64). -/
def fieldOp (w : Word) : BitVec 4 := w.extractLsb' 0 4

/-- RSV0, bits 7:4, "reserved, must be 0" (R64). -/
def fieldRsv0 (w : Word) : BitVec 4 := w.extractLsb' 4 4

/-- LEN, bits 13:8 (R64). -/
def fieldLen (w : Word) : BitVec 6 := w.extractLsb' 8 6

/-- RSV1, bits 31:14, "reserved, must be 0" (R64). -/
def fieldRsv1 (w : Word) : BitVec 18 := w.extractLsb' 14 18

/-- Why a word is ILLEGAL. Both names lead to the one error IllegalCommand (60_exceptions.md R136). -/
inductive Illegal where
  /-- "A word with any bit of RSV0 (bits 7:4) or RSV1 (bits 31:14) set decodes to ILLEGAL, whatever its OP" (R69). -/
  | reservedBits
  /-- "OP values 0x0 and 0x7 to 0xF are reserved" (R68). -/
  | reservedOp
deriving DecidableEq, Repr

/-- What Decode returns: a command, or ILLEGAL with its reason (R67). -/
inductive Decoded where
  | instr (i : Instr)
  | illegal (why : Illegal)
deriving DecidableEq, Repr

/-- `Decode(w)`, "a total function from 32-bit words to commands" (R67). -/
def decode (w : Word) : Decoded :=
  if fieldRsv1 w ≠ 0 ∨ fieldRsv0 w ≠ 0 then .illegal .reservedBits
  else
    match (fieldOp w).toNat with
    | 1 => .instr (.keyInit (fieldLen w).toNat)
    | 2 => .instr (.encBlock (fieldLen w).toNat)
    | 3 => .instr (.decBlock (fieldLen w).toNat)
    | 4 => .instr (.cfbInit (fieldLen w).toNat)
    | 5 => .instr (.cfbEnc (fieldLen w).toNat)
    | 6 => .instr (.cfbDec (fieldLen w).toNat)
    | _ => .illegal .reservedOp

/-- The OP value of a command (R66). -/
def Instr.op : Instr → BitVec 4
  | .keyInit _ => 0x1
  | .encBlock _ => 0x2
  | .decBlock _ => 0x3
  | .cfbInit _ => 0x4
  | .cfbEnc _ => 0x5
  | .cfbDec _ => 0x6

/-- The command word of a well-formed command: RSV1, LEN, RSV0, OP from the top (R64); "The word is `OP | n << 8`" (R72). -/
def encode (i : Instr) : Word := 0#18 ++ BitVec.ofNat 6 i.len ++ 0#4 ++ i.op

/-- The 32-bit word the host would write to CMD for `nbits` table bits of value `w`: the bits above `nbits` are 0. A command is
one 32-bit word (R63), so there is no other byte or word order to lay out. -/
def tableWord (nbits w : Nat) : Word := BitVec.ofNat 32 (w % 2 ^ nbits)

/-- The command this decoder reads from the bits `w` of a row of spec/opcode_table.json. -/
def decodeTableWord (nbits w : Nat) : Option Instr :=
  match decode (tableWord nbits w) with
  | .instr i => some i
  | .illegal _ => none

end Sys2Proof
end

