-- ==== Sys2Proof/Machine/State.lean ====
section
/-! DEFINITION. The state of the core (10_state.md R16), the host's accesses and the two kinds of stop. -/

namespace Sys2Proof.Machine

/-- The error codes of 60_exceptions.md R132 by name; their values are `ErrCode.code` in Machine/Flags.lean. -/
inductive ErrCode where
  | invalidKeyLength
  | invalidBlockLength
  | invalidIVLength
  | illegalCommand
  | noKey
  | noMode
  | invalidChunkLength
deriving DecidableEq, Repr

/-- The registers of the window by name (10_state.md R30). -/
inductive Reg where
  | cmd
  | status
  | info
  | key (k : Fin 8)
  | din (k : Fin 4)
  | dout (k : Fin 4)
  | fr (k : Fin 4)
  | reserved
deriving DecidableEq, Repr

/-- One host access, permitted or not: its width in bits, its address, and for a write the value (20_memory.md R44, R46). At a
width other than 32 the value never matters, since the access is refused (log 11). -/
inductive Access where
  | read (width offset : Nat)
  | write (width offset : Nat) (value : Word)
deriving DecidableEq, Repr

/-- What may happen next, in the one total order of 20_memory.md R56 (log 1). -/
inductive Event where
  /-- A host access whose address is its window offset, a − BASE (20_memory.md R43). -/
  | access (a : Access)
  /-- A host access whose address is a host bus address (20_memory.md R43). -/
  | bus (a : Access)
  /-- The host's poll loop: "`rd 0x004` repeated until bit 0 of the value read is 0" (30_encoding.md R73; log 9). -/
  | poll
  /-- The core's turn: it completes its pending command if it has one (10_state.md R38). -/
  | core
  /-- The platform asserts reset (70_reset_and_hazards.md R151). -/
  | resetAssert
  /-- The platform releases reset (70_reset_and_hazards.md R152; log 5). -/
  | resetRelease
deriving DecidableEq, Repr

/-- What the host got back (log 3). -/
inductive Response where
  /-- The value of a permitted read at a window offset (20_memory.md R44). -/
  | value (offset : Nat) (v : Word)
  /-- A refused access, seen by the host as BUSERR_RESPONSE (20_memory.md R46; 70_reset_and_hazards.md R168). -/
  | refused (a : Access)
deriving DecidableEq, Repr

/-- The machine. The first twelve fields are exactly the elements of 10_state.md R16; the last three are the model's own: the
reset input's level, the events to come and what the host has got back (log 1, log 5). -/
structure State where
  /-- KEYBUF[0..31] (R17). -/
  keybuf : Key
  /-- DIN[0..15] (R18). -/
  din : Block
  /-- DOUT[0..15] (R19). -/
  dout : Block
  /-- FR[0..15] (R20). -/
  fr : Block
  /-- RK[1..10] (R21): `rk[i]` is RK[i+1]. -/
  rk : Vector Block 10
  /-- KEYED (R22). -/
  keyed : Bool
  /-- MODE (R23). -/
  mode : Bool
  /-- PART (R24). -/
  part : Bool
  /-- BUSY (R25). -/
  busy : Bool
  /-- OVR (R27). -/
  ovr : Bool
  /-- ERR (R26). -/
  err : BitVec 4
  /-- PEND, "the command word accepted and not yet completed, or `none`" (R28). -/
  pend : Option Word
  /-- The level of the reset input (70_reset_and_hazards.md R151, R152). -/
  resetLine : Bool
  /-- The accesses, reset edges and turns of the core to come, first first. -/
  events : List Event
  /-- What the host got back, newest first. -/
  seen : List Response
deriving DecidableEq, Repr

/-- Stops that are no behaviour of the core: "no state of the core is a fault or stuck state" (70_reset_and_hazards.md R168). No
command raises either. -/
inductive Fault where
  /-- Raised by a host access outside the 256-byte window: "outside this model" (20_memory.md R43; 93_implementation_defined.md).
  Safe: the model stops where the platform decides (log 4). -/
  | outsideWindow (address : Nat)
  /-- Raised by a completion with BUSY = 1 and PEND = none, which 10_state.md R29 rules out. Safe: the state is unreachable (log 6). -/
  | noPendingCommand
deriving DecidableEq, Repr

/-- Refusals. Every command has its meaning, so none is in use. -/
inductive Refusal where
  /-- Raised by an arm of `exec` that has no meaning yet: none. Safe: the model stops. -/
  | notModelled (mnemonic : String)
deriving DecidableEq, Repr

/-- The machine right after reset: every element at the value of 10_state.md R16 and 70_reset_and_hazards.md R151; the model's own
fields released and empty (DESIGN CHOICE, log 1, log 5). -/
def State.reset : State where
  keybuf := zeroKey
  din := zeroBlock
  dout := zeroBlock
  fr := zeroBlock
  rk := Vector.replicate 10 zeroBlock
  keyed := false
  mode := false
  part := false
  busy := false
  ovr := false
  err := 0
  pend := none
  resetLine := false
  events := []
  seen := []

/-- How one step ends. -/
abbrev Result := Host.Outcome State Fault Refusal

end Sys2Proof.Machine
end

