-- ==== Sys2Proof/Machine/Flags.lean ====
section
/-! DEFINITION. ERR's codes, the STATUS word and the constant INFO (60_exceptions.md R132; 10_state.md R32–R34). -/

namespace Sys2Proof.Machine

/-- The 4-bit value of an error (60_exceptions.md R132). 0 is OK; 8–15 are "never produced". -/
def ErrCode.code : ErrCode → BitVec 4
  | .invalidKeyLength => 1
  | .invalidBlockLength => 2
  | .invalidIVLength => 3
  | .illegalCommand => 4
  | .noKey => 5
  | .noMode => 6
  | .invalidChunkLength => 7

/-- ERR's value on success: "0 OK, the command succeeded" (R132). -/
def okCode : BitVec 4 := 0

/-- One flag as a bit. -/
def flagBit (b : Bool) : BitVec 1 := BitVec.ofBool b

/-- What a read of STATUS returns, field by field from bit 31 down: reserved 31:12, ERR 11:8, reserved 7:5, OVR 4, PART 3, MODE 2,
KEYED 1, BUSY 0 (10_state.md R32). -/
def statusWord (s : State) : Word :=
  0#20 ++ s.err ++ 0#3 ++ flagBit s.ovr ++ flagBit s.part ++ flagBit s.mode ++ flagBit s.keyed ++ flagBit s.busy

/-- INFO: IFREV 0x01, N_RK 0x0A, KEY_BYTES 0x20, BLOCK_BYTES 0x10 from bit 31 down (10_state.md R34). -/
def infoWord : Word :=
  0x01#8 ++ BitVec.ofNat 8 Config.roundKeys ++ BitVec.ofNat 8 Config.keyBytes ++ BitVec.ofNat 8 Config.blockBytes

/-- A write of w to STATUS: "if `w[4] = 1`, then `OVR <- 0`", nothing else, BUSY or not (10_state.md R33). -/
def writeStatus (w : Word) (s : State) : State := { s with ovr := s.ovr && !w.getLsbD 4 }

end Sys2Proof.Machine
end

