-- ==== Sys2Proof/Machine/Operands.lean ====
section
/-! DEFINITION. The data operands: byte lanes of the windows, the key's halves, a chunk's bytes (20_memory.md R47–R51;
43_cfb_mode.md R120–R125). -/

namespace Sys2Proof.Machine

/-- Byte i of a data word, i = 0..3: bits 31:24 first (20_memory.md R47). -/
def laneByte (w : Word) (i : Nat) : Byte := w.extractLsb' (24 - 8 * i) 8

/-- The data word of four buffer bytes, the first in bits 31:24 (20_memory.md R47, R48). -/
def packLanes (b0 b1 b2 b3 : Byte) : Word := b0 ++ b1 ++ b2 ++ b3

/-- Word k of a 16-byte window (20_memory.md R48). -/
def blockWord (b : Block) (k : Fin 4) : Word :=
  packLanes b[4 * k.val] b[4 * k.val + 1] b[4 * k.val + 2] b[4 * k.val + 3]

/-- Word k of a 32-byte key, in the same lanes (20_memory.md R47). -/
def keyWord (b : Key) (k : Fin 8) : Word :=
  packLanes b[4 * k.val] b[4 * k.val + 1] b[4 * k.val + 2] b[4 * k.val + 3]

/-- A 16-byte buffer after word k is written with v (20_memory.md R49). -/
def setBlockWord (b : Block) (k : Fin 4) (v : Word) : Block :=
  Vector.ofFn fun i => if i.val / 4 = k.val then laneByte v (i.val % 4) else b[i]

/-- A 32-byte buffer after word k is written with v (20_memory.md R49). -/
def setKeyWord (b : Key) (k : Fin 8) (v : Word) : Key :=
  Vector.ofFn fun i => if i.val / 4 = k.val then laneByte v (i.val % 4) else b[i]

/-- `K[0..15]`, "The first round key `RK[1]`" (20_memory.md R51). -/
def keyFirst (k : Key) : Block := Vector.ofFn fun i => k[i.val]

/-- `K[16..31]`, "the second, `RK[2]`" (20_memory.md R51). -/
def keySecond (k : Key) : Block := Vector.ofFn fun i => k[16 + i.val]

/-- `A || B` for two blocks (00_scope.md R11). -/
def joinBlocks (a b : Block) : Key := Vector.ofFn fun i => if h : i.val < 16 then a[i.val] else b[i.val - 16]

/-- "the bound key": `RK[1] || RK[2]` (10_state.md R17, R29). -/
def boundKey (rk : Vector Block 10) : Key := joinBlocks rk[0] rk[1]

/-- DOUT of a chunk of n bytes: `DIN[i] ⊕ KS[i] if i < n else 0x00` (43_cfb_mode.md R120, R121, R125). -/
def chunkOut (n : Nat) (input ks : Block) : Block :=
  Vector.ofFn fun i => if i.val < n then input[i] ^^^ ks[i] else 0

end Sys2Proof.Machine
end

