-- ==== Sys2Proof/Machine/Ops.lean ====
section
/-! DEFINITION. The named operations over State: the register window, accept, raising an error and succeeding, reset, and host
accesses with their refusals (10_state.md R30–R38; 20_memory.md R42–R55; 60_exceptions.md R132–R146; 70_reset_and_hazards.md). -/

namespace Sys2Proof.Machine

/-! ## How a command ends -/

/-- What every completion writes: `ERR <- code; PEND <- none; BUSY <- 0` (10_state.md R38). -/
def finish (code : BitVec 4) (s : State) : State := { s with err := code, pend := none, busy := false }

/-- `raise Error(code)`, the only thing like an exception this hardware has: it "ends the executing command at once" and writes
nothing but ERR, PEND and BUSY (00_scope.md R13; 60_exceptions.md R133, R145). Nothing is saved and nothing returns from it (R146). -/
def raiseError (e : ErrCode) (s : State) : Result := .next (finish e.code s)

/-- The end of a command that succeeds, with its own writes already in `s`: ERR is 0 (10_state.md R38; 60_exceptions.md R133). -/
def succeed (s : State) : Result := .next (finish okCode s)

/-! ## What the commands write -/

/-- `DOUT <- b` (10_state.md R19). -/
def setDout (b : Block) (s : State) : State := { s with dout := b }

/-- `FR <- b` (10_state.md R20). -/
def setFr (b : Block) (s : State) : State := { s with fr := b }

/-- `PART <- 1` (10_state.md R24). -/
def setPart (s : State) : State := { s with part := true }

/-- A new cipher instance with round keys `rk`; it ends the mode instance: `KEYED <- 1`, `MODE <- 0`, `PART <- 0`, `FR <- 0^16`
(41_key_schedule.md R103, R104). -/
def bindKey (rk : Vector Block 10) (s : State) : State :=
  { s with rk := rk, keyed := true, mode := false, part := false, fr := zeroBlock }

/-- A new mode instance: `FR <- iv`, `MODE <- 1`, `PART <- 0` (43_cfb_mode.md R119). -/
def startMode (iv : Block) (s : State) : State := { s with fr := iv, mode := true, part := false }

/-! ## The register window -/

/-- The register at an aligned window offset (10_state.md R30). Every offset that names none is reserved. -/
def regOf (offset : Nat) : Reg :=
  let k := offset / 4
  if k = 0 then .cmd
  else if k = 1 then .status
  else if k = 2 then .info
  else if h : 8 ≤ k ∧ k < 16 then .key ⟨k - 8, by omega⟩
  else if h : 16 ≤ k ∧ k < 20 then .din ⟨k - 16, by omega⟩
  else if h : 20 ≤ k ∧ k < 24 then .dout ⟨k - 20, by omega⟩
  else if h : 24 ≤ k ∧ k < 28 then .fr ⟨k - 24, by omega⟩
  else .reserved

/-- What a read of a register returns; CMD, KEY and reserved offsets read 0 (10_state.md R30–R36; 20_memory.md R48). -/
def readReg (r : Reg) (s : State) : Word :=
  match r with
  | .cmd => 0
  | .status => statusWord s
  | .info => infoWord
  | .key _ => 0
  | .din k => blockWord s.din k
  | .dout k => blockWord s.dout k
  | .fr k => blockWord s.fr k
  | .reserved => 0

/-- A host write dropped because BUSY = 1: `OVR <- 1` and nothing else (10_state.md R27, R37; 20_memory.md R49). -/
def dropWrite (s : State) : State := { s with ovr := true }

/-- `PEND <- w; BUSY <- 1` (10_state.md R37). -/
def takeCommand (w : Word) (s : State) : State := { s with pend := some w, busy := true }

/-- Accept, the effect of a write to CMD: "Accept does not check w" (10_state.md R37). -/
def accept (w : Word) (s : State) : State := if s.busy then dropWrite s else takeCommand w s

/-- A write to KEY word k (20_memory.md R49). -/
def writeKey (k : Fin 8) (v : Word) (s : State) : State :=
  if s.busy then dropWrite s else { s with keybuf := setKeyWord s.keybuf k v }

/-- A write to DIN word k (20_memory.md R49). -/
def writeDin (k : Fin 4) (v : Word) (s : State) : State :=
  if s.busy then dropWrite s else { s with din := setBlockWord s.din k v }

/-- A write to a register; INFO, DOUT, FR and reserved offsets ignore it (10_state.md R30, R33–R37; 20_memory.md R49). -/
def writeReg (r : Reg) (v : Word) (s : State) : State :=
  match r with
  | .cmd => accept v s
  | .status => writeStatus v s
  | .info => s
  | .key k => writeKey k v s
  | .din k => writeDin k v s
  | .dout _ => s
  | .fr _ => s
  | .reserved => s

/-- `MemRead(off, 4)` (20_memory.md R44). It returns a value and no state: "Reads have no side effect at any offset" (R54). -/
def memRead (offset : Nat) (s : State) : Word := readReg (regOf offset) s

/-- `MemWrite(off, 4, v)` (20_memory.md R44). -/
def memWrite (offset : Nat) (v : Word) (s : State) : State := writeReg (regOf offset) v s

/-! ## Host accesses -/

/-- The width of an access in bits. -/
def Access.width : Access → Nat
  | .read w _ => w
  | .write w _ _ => w

/-- The address an access carries. -/
def Access.offset : Access → Nat
  | .read _ a => a
  | .write _ a _ => a

/-- Whether an access writes. -/
def Access.isWrite : Access → Bool
  | .read _ _ => false
  | .write _ _ _ => true

/-- The same access at another address. -/
def Access.at (off : Nat) : Access → Access
  | .read w _ => .read w off
  | .write w _ v => .write w off v

/-- "An access with width other than 32 bits, or whose offset is not a multiple of 4, is refused" (20_memory.md R46). -/
def Access.malformed (a : Access) : Bool := a.width != Config.busWidth || a.offset % 4 != 0

/-- The host gets an answer; the core does not change (log 3). -/
def record (r : Response) (s : State) : State := { s with seen := r :: s.seen }

/-- A permitted access (20_memory.md R44). -/
def permitted (a : Access) (s : State) : State :=
  match a with
  | .read _ off => record (.value off (memRead off s)) s
  | .write _ off v => memWrite off v s

/-- A host access at a window offset. Outside the window the spec gives nothing (20_memory.md R43; log 4). Malformed (R46), or
while reset is asserted (70_reset_and_hazards.md R152), it is refused: "It changes no state and does not set OVR". -/
def hostAccess (a : Access) (s : State) : Result :=
  if Config.windowBytes ≤ a.offset then .fault (.outsideWindow a.offset)
  else if a.malformed || s.resetLine then .next (record (.refused a) s)
  else .next (permitted a s)

/-- The window offset of a host bus address: `BASE ≤ a < BASE + 0x100`, `off = a − BASE` (20_memory.md R43). -/
def windowOffset (a : Nat) : Option Nat :=
  if Config.base ≤ a ∧ a < Config.base + Config.windowBytes then some (a - Config.base) else none

/-- A host access at a bus address (20_memory.md R43). -/
def busAccess (a : Access) (s : State) : Result :=
  match windowOffset a.offset with
  | some off => hostAccess (a.at off) s
  | none => .fault (.outsideWindow a.offset)

/-- What a host sees of an answer: the word read, or whatever the platform's bus does with a refused access (00_scope.md R9). -/
inductive HostView where
  | word (v : Word)
  | busError (r : Config.BusErr)
deriving DecidableEq, Repr

/-- A refused access is seen as BUSERR_RESPONSE (20_memory.md R46; 60_exceptions.md R144). -/
def Response.view : Response → HostView
  | .value _ v => .word v
  | .refused a => .busError (Config.busErrResponse a.isWrite a.width a.offset)

/-! ## Reset -/

/-- Reset asserted: every element at its reset value; a pending command is abandoned "with none of its writes"
(70_reset_and_hazards.md R151, R152). What the host got back and what it will do are not the core's (log 5). -/
def assertReset (s : State) : State :=
  { State.reset with resetLine := true, events := s.events, seen := s.seen }

/-- Reset released: "the core is ready for a command in the first host access after reset ends" (70_reset_and_hazards.md R153). -/
def releaseReset (s : State) : State := { s with resetLine := false }

/-- The events that follow `es` replace the list. -/
def setEvents (es : List Event) (s : State) : State := { s with events := es }

end Sys2Proof.Machine
end

