-- ==== Sys2Proof/Machine/Tables.lean ====
section
/-! DEFINITION. The fixed tables of 40_primitives.md (R81, R83, R85, R98). They are constants, not state (10_state.md R39). -/

namespace Sys2Proof.Machine

/-- The table `PI` as 40_primitives.md R81 prints it: "The entry for input `0xRC` is in row `Rx`, column `xC`". -/
def piRows : List (List Byte) :=
  [[0xfc, 0xee, 0xdd, 0x11, 0xcf, 0x6e, 0x31, 0x16, 0xfb, 0xc4, 0xfa, 0xda, 0x23, 0xc5, 0x04, 0x4d]] ++
  [[0xe9, 0x77, 0xf0, 0xdb, 0x93, 0x2e, 0x99, 0xba, 0x17, 0x36, 0xf1, 0xbb, 0x14, 0xcd, 0x5f, 0xc1]] ++
  [[0xf9, 0x18, 0x65, 0x5a, 0xe2, 0x5c, 0xef, 0x21, 0x81, 0x1c, 0x3c, 0x42, 0x8b, 0x01, 0x8e, 0x4f]] ++
  [[0x05, 0x84, 0x02, 0xae, 0xe3, 0x6a, 0x8f, 0xa0, 0x06, 0x0b, 0xed, 0x98, 0x7f, 0xd4, 0xd3, 0x1f]] ++
  [[0xeb, 0x34, 0x2c, 0x51, 0xea, 0xc8, 0x48, 0xab, 0xf2, 0x2a, 0x68, 0xa2, 0xfd, 0x3a, 0xce, 0xcc]] ++
  [[0xb5, 0x70, 0x0e, 0x56, 0x08, 0x0c, 0x76, 0x12, 0xbf, 0x72, 0x13, 0x47, 0x9c, 0xb7, 0x5d, 0x87]] ++
  [[0x15, 0xa1, 0x96, 0x29, 0x10, 0x7b, 0x9a, 0xc7, 0xf3, 0x91, 0x78, 0x6f, 0x9d, 0x9e, 0xb2, 0xb1]] ++
  [[0x32, 0x75, 0x19, 0x3d, 0xff, 0x35, 0x8a, 0x7e, 0x6d, 0x54, 0xc6, 0x80, 0xc3, 0xbd, 0x0d, 0x57]] ++
  [[0xdf, 0xf5, 0x24, 0xa9, 0x3e, 0xa8, 0x43, 0xc9, 0xd7, 0x79, 0xd6, 0xf6, 0x7c, 0x22, 0xb9, 0x03]] ++
  [[0xe0, 0x0f, 0xec, 0xde, 0x7a, 0x94, 0xb0, 0xbc, 0xdc, 0xe8, 0x28, 0x50, 0x4e, 0x33, 0x0a, 0x4a]] ++
  [[0xa7, 0x97, 0x60, 0x73, 0x1e, 0x00, 0x62, 0x44, 0x1a, 0xb8, 0x38, 0x82, 0x64, 0x9f, 0x26, 0x41]] ++
  [[0xad, 0x45, 0x46, 0x92, 0x27, 0x5e, 0x55, 0x2f, 0x8c, 0xa3, 0xa5, 0x7d, 0x69, 0xd5, 0x95, 0x3b]] ++
  [[0x07, 0x58, 0xb3, 0x40, 0x86, 0xac, 0x1d, 0xf7, 0x30, 0x37, 0x6b, 0xe4, 0x88, 0xd9, 0xe7, 0x89]] ++
  [[0xe1, 0x1b, 0x83, 0x49, 0x4c, 0x3f, 0xf8, 0xfe, 0x8d, 0x53, 0xaa, 0x90, 0xca, 0xd8, 0x85, 0x61]] ++
  [[0x20, 0x71, 0x67, 0xa4, 0x2d, 0x2b, 0x09, 0x5b, 0xcb, 0x9b, 0x25, 0xd0, 0xbe, 0xe5, 0x6c, 0x52]] ++
  [[0x59, 0xa6, 0x74, 0xd2, 0xe6, 0xf4, 0xb4, 0xc0, 0xd1, 0x66, 0xaf, 0xc2, 0x39, 0x4b, 0x63, 0xb6]]

/-- The table `PI_INV` as 40_primitives.md R83 prints it. -/
def piInvRows : List (List Byte) :=
  [[0xa5, 0x2d, 0x32, 0x8f, 0x0e, 0x30, 0x38, 0xc0, 0x54, 0xe6, 0x9e, 0x39, 0x55, 0x7e, 0x52, 0x91]] ++
  [[0x64, 0x03, 0x57, 0x5a, 0x1c, 0x60, 0x07, 0x18, 0x21, 0x72, 0xa8, 0xd1, 0x29, 0xc6, 0xa4, 0x3f]] ++
  [[0xe0, 0x27, 0x8d, 0x0c, 0x82, 0xea, 0xae, 0xb4, 0x9a, 0x63, 0x49, 0xe5, 0x42, 0xe4, 0x15, 0xb7]] ++
  [[0xc8, 0x06, 0x70, 0x9d, 0x41, 0x75, 0x19, 0xc9, 0xaa, 0xfc, 0x4d, 0xbf, 0x2a, 0x73, 0x84, 0xd5]] ++
  [[0xc3, 0xaf, 0x2b, 0x86, 0xa7, 0xb1, 0xb2, 0x5b, 0x46, 0xd3, 0x9f, 0xfd, 0xd4, 0x0f, 0x9c, 0x2f]] ++
  [[0x9b, 0x43, 0xef, 0xd9, 0x79, 0xb6, 0x53, 0x7f, 0xc1, 0xf0, 0x23, 0xe7, 0x25, 0x5e, 0xb5, 0x1e]] ++
  [[0xa2, 0xdf, 0xa6, 0xfe, 0xac, 0x22, 0xf9, 0xe2, 0x4a, 0xbc, 0x35, 0xca, 0xee, 0x78, 0x05, 0x6b]] ++
  [[0x51, 0xe1, 0x59, 0xa3, 0xf2, 0x71, 0x56, 0x11, 0x6a, 0x89, 0x94, 0x65, 0x8c, 0xbb, 0x77, 0x3c]] ++
  [[0x7b, 0x28, 0xab, 0xd2, 0x31, 0xde, 0xc4, 0x5f, 0xcc, 0xcf, 0x76, 0x2c, 0xb8, 0xd8, 0x2e, 0x36]] ++
  [[0xdb, 0x69, 0xb3, 0x14, 0x95, 0xbe, 0x62, 0xa1, 0x3b, 0x16, 0x66, 0xe9, 0x5c, 0x6c, 0x6d, 0xad]] ++
  [[0x37, 0x61, 0x4b, 0xb9, 0xe3, 0xba, 0xf1, 0xa0, 0x85, 0x83, 0xda, 0x47, 0xc5, 0xb0, 0x33, 0xfa]] ++
  [[0x96, 0x6f, 0x6e, 0xc2, 0xf6, 0x50, 0xff, 0x5d, 0xa9, 0x8e, 0x17, 0x1b, 0x97, 0x7d, 0xec, 0x58]] ++
  [[0xf7, 0x1f, 0xfb, 0x7c, 0x09, 0x0d, 0x7a, 0x67, 0x45, 0x87, 0xdc, 0xe8, 0x4f, 0x1d, 0x4e, 0x04]] ++
  [[0xeb, 0xf8, 0xf3, 0x3e, 0x3d, 0xbd, 0x8a, 0x88, 0xdd, 0xcd, 0x0b, 0x13, 0x98, 0x02, 0x93, 0x80]] ++
  [[0x90, 0xd0, 0x24, 0x34, 0xcb, 0xed, 0xf4, 0xce, 0x99, 0x10, 0x44, 0x40, 0x92, 0x3a, 0x01, 0x26]] ++
  [[0x12, 0x1a, 0x48, 0x68, 0xf5, 0x81, 0x8b, 0xc7, 0xd6, 0x20, 0x0a, 0x08, 0x00, 0x4c, 0xd7, 0x74]]

/-- The entry of a 16 by 16 table in row `r`, column `c`. -/
def tableAt (rows : List (List Byte)) (r c : Nat) : Byte := (rows.getD r []).getD c 0

/-- `PI[x]` (R81). -/
def pi (x : Byte) : Byte := tableAt piRows (x.toNat / 16) (x.toNat % 16)

/-- `PI_INV[x]` (R83). -/
def piInv (x : Byte) : Byte := tableAt piInvRows (x.toNat / 16) (x.toNat % 16)

/-- The coefficient vector `LC[0..15]` (R85), in the spec's decimal form. -/
def lc : List Byte := [148, 32, 133, 16, 194, 192, 1, 251, 1, 192, 194, 16, 133, 32, 148, 1]

/-- The matrix M of L (R98): row i, column j. -/
def matRows : List (List Byte) :=
  [[0xcf, 0x98, 0x74, 0xbf, 0x93, 0x8e, 0xf2, 0xf3, 0x0a, 0xbf, 0xf6, 0xa9, 0xea, 0x8e, 0x4d, 0x6e]] ++
  [[0x6e, 0x20, 0xc6, 0xda, 0x90, 0x48, 0x89, 0x9c, 0xc1, 0x64, 0xb8, 0x2d, 0x86, 0x44, 0xd0, 0xa2]] ++
  [[0xa2, 0xc8, 0x87, 0x70, 0x68, 0x43, 0x1c, 0x2b, 0xa1, 0x63, 0x30, 0x6b, 0x9f, 0x30, 0xe3, 0x76]] ++
  [[0x76, 0x33, 0x10, 0x0c, 0x1c, 0x11, 0xd6, 0x6a, 0xa6, 0xd7, 0xf6, 0x49, 0x07, 0x14, 0xe8, 0x72]] ++
  [[0x72, 0xf2, 0x6b, 0xca, 0x20, 0xeb, 0x02, 0xa4, 0x8d, 0xd4, 0xc4, 0x01, 0x65, 0xdd, 0x4c, 0x6c]] ++
  [[0x6c, 0x76, 0xec, 0x0c, 0xc5, 0xbc, 0xaf, 0x6e, 0xa3, 0xe1, 0x90, 0x58, 0x0e, 0x02, 0xc3, 0x48]] ++
  [[0x48, 0xd5, 0x62, 0x17, 0x06, 0x2d, 0xc4, 0xe7, 0xd5, 0xeb, 0x99, 0x78, 0x52, 0xf5, 0x16, 0x7a]] ++
  [[0x7a, 0xe6, 0x4e, 0x1a, 0xbb, 0x2e, 0xf1, 0xbe, 0xd4, 0xaf, 0x37, 0xb1, 0xd4, 0x2a, 0x6e, 0xb8]] ++
  [[0xb8, 0x49, 0x87, 0x14, 0xcb, 0x8d, 0xab, 0x49, 0x09, 0x6c, 0x2a, 0x01, 0x60, 0x8e, 0x4b, 0x5d]] ++
  [[0x5d, 0xd4, 0xb8, 0x2f, 0x8d, 0x12, 0xee, 0xf6, 0x08, 0x54, 0x0f, 0xf3, 0x98, 0xc8, 0x7f, 0x27]] ++
  [[0x27, 0x9f, 0xbe, 0x68, 0x1a, 0x7c, 0xad, 0xc9, 0x84, 0x2f, 0xeb, 0xfe, 0xc6, 0x48, 0xa2, 0xbd]] ++
  [[0xbd, 0x95, 0x5e, 0x30, 0xe9, 0x60, 0xbf, 0x10, 0xef, 0x39, 0xec, 0x91, 0x7f, 0x48, 0x89, 0x10]] ++
  [[0x10, 0xe9, 0xd0, 0xd9, 0xf3, 0x94, 0x3d, 0xaf, 0x7b, 0xff, 0x64, 0x91, 0x52, 0xf8, 0x0d, 0xdd]] ++
  [[0xdd, 0x99, 0x75, 0xca, 0x97, 0x44, 0x5a, 0xe0, 0x30, 0xa6, 0x31, 0xd3, 0xdf, 0x48, 0x64, 0x84]] ++
  [[0x84, 0x2d, 0x74, 0x96, 0x5d, 0x77, 0x6f, 0xde, 0x54, 0xb4, 0x8d, 0xd1, 0x44, 0x3c, 0xa5, 0x94]] ++
  [[0x94, 0x20, 0x85, 0x10, 0xc2, 0xc0, 0x01, 0xfb, 0x01, 0xc0, 0xc2, 0x10, 0x85, 0x20, 0x94, 0x01]]

/-- The matrix Minv of L⁻¹ (R98): row i, column j. -/
def matInvRows : List (List Byte) :=
  [[0x01, 0x94, 0x20, 0x85, 0x10, 0xc2, 0xc0, 0x01, 0xfb, 0x01, 0xc0, 0xc2, 0x10, 0x85, 0x20, 0x94]] ++
  [[0x94, 0xa5, 0x3c, 0x44, 0xd1, 0x8d, 0xb4, 0x54, 0xde, 0x6f, 0x77, 0x5d, 0x96, 0x74, 0x2d, 0x84]] ++
  [[0x84, 0x64, 0x48, 0xdf, 0xd3, 0x31, 0xa6, 0x30, 0xe0, 0x5a, 0x44, 0x97, 0xca, 0x75, 0x99, 0xdd]] ++
  [[0xdd, 0x0d, 0xf8, 0x52, 0x91, 0x64, 0xff, 0x7b, 0xaf, 0x3d, 0x94, 0xf3, 0xd9, 0xd0, 0xe9, 0x10]] ++
  [[0x10, 0x89, 0x48, 0x7f, 0x91, 0xec, 0x39, 0xef, 0x10, 0xbf, 0x60, 0xe9, 0x30, 0x5e, 0x95, 0xbd]] ++
  [[0xbd, 0xa2, 0x48, 0xc6, 0xfe, 0xeb, 0x2f, 0x84, 0xc9, 0xad, 0x7c, 0x1a, 0x68, 0xbe, 0x9f, 0x27]] ++
  [[0x27, 0x7f, 0xc8, 0x98, 0xf3, 0x0f, 0x54, 0x08, 0xf6, 0xee, 0x12, 0x8d, 0x2f, 0xb8, 0xd4, 0x5d]] ++
  [[0x5d, 0x4b, 0x8e, 0x60, 0x01, 0x2a, 0x6c, 0x09, 0x49, 0xab, 0x8d, 0xcb, 0x14, 0x87, 0x49, 0xb8]] ++
  [[0xb8, 0x6e, 0x2a, 0xd4, 0xb1, 0x37, 0xaf, 0xd4, 0xbe, 0xf1, 0x2e, 0xbb, 0x1a, 0x4e, 0xe6, 0x7a]] ++
  [[0x7a, 0x16, 0xf5, 0x52, 0x78, 0x99, 0xeb, 0xd5, 0xe7, 0xc4, 0x2d, 0x06, 0x17, 0x62, 0xd5, 0x48]] ++
  [[0x48, 0xc3, 0x02, 0x0e, 0x58, 0x90, 0xe1, 0xa3, 0x6e, 0xaf, 0xbc, 0xc5, 0x0c, 0xec, 0x76, 0x6c]] ++
  [[0x6c, 0x4c, 0xdd, 0x65, 0x01, 0xc4, 0xd4, 0x8d, 0xa4, 0x02, 0xeb, 0x20, 0xca, 0x6b, 0xf2, 0x72]] ++
  [[0x72, 0xe8, 0x14, 0x07, 0x49, 0xf6, 0xd7, 0xa6, 0x6a, 0xd6, 0x11, 0x1c, 0x0c, 0x10, 0x33, 0x76]] ++
  [[0x76, 0xe3, 0x30, 0x9f, 0x6b, 0x30, 0x63, 0xa1, 0x2b, 0x1c, 0x43, 0x68, 0x70, 0x87, 0xc8, 0xa2]] ++
  [[0xa2, 0xd0, 0x44, 0x86, 0x2d, 0xb8, 0x64, 0xc1, 0x9c, 0x89, 0x48, 0x90, 0xda, 0xc6, 0x20, 0x6e]] ++
  [[0x6e, 0x4d, 0x8e, 0xea, 0xa9, 0xf6, 0xbf, 0x0a, 0xf3, 0xf2, 0x8e, 0x93, 0xbf, 0x74, 0x98, 0xcf]]

end Sys2Proof.Machine
end

