-- ==== Sys2Proof/Machine/Primitives.lean ====
section
/-! DEFINITION. Field arithmetic, substitution and the linear layer (40_primitives.md R77–R98). Every function is pure and total. -/

namespace Sys2Proof.Machine

/-- The `for i in 0..7` loop of gmul with `k` iterations to go: the accumulator p, then a and b (R79). -/
def gmulLoop : Nat → Byte → Byte → Byte → Byte
  | 0, p, _, _ => p
  | k + 1, p, a, b =>
    gmulLoop k (if b.getLsbD 0 then p ^^^ a else p)
      (if a.getLsbD 7 then (a <<< 1) ^^^ 0xC3 else a <<< 1) (b >>> 1)

/-- `gmul(a, b)`, multiplication in GF(2^8) modulo x^8 + x^7 + x^6 + x + 1, 0x1C3 (R78, R79). -/
def gmul (a b : Byte) : Byte := gmulLoop 8 0 a b

/-- Byte-wise exclusive-or of two blocks: `A ⊕ B` (00_scope.md R12), and key addition `X[K](B)` (R91). -/
def xorBlock (a b : Block) : Block := Vector.ofFn fun i => a[i] ^^^ b[i]

/-- S: `S(B)[i] = PI[B[i]]` (R82). -/
def sub (b : Block) : Block := Vector.ofFn fun i => pi b[i]

/-- S⁻¹: `S⁻¹(B)[i] = PI_INV[B[i]]` (R84). -/
def subInv (b : Block) : Block := Vector.ofFn fun i => piInv b[i]

/-- ⊕ over j of `gmul(row[j], B[j])`. -/
def dot (row : List Byte) (b : Block) : Byte := (List.zipWith gmul row b.toList).foldl (· ^^^ ·) 0

/-- ℓ: `gmul(LC[0], B[0]) ⊕ … ⊕ gmul(LC[15], B[15])` (R86). -/
def ell (b : Block) : Byte := dot lc b

/-- R: "`R(B)[0] = l(B); R(B)[i] = B[i−1] for i in 1..15`" (R87). -/
def shiftR (b : Block) : Block := Vector.ofFn fun i => if i.val = 0 then ell b else b[i.val - 1]

/-- `B[1..15] || B[0]`, the block R⁻¹ applies ℓ to (R89). -/
def rotate (b : Block) : Block := Vector.ofFn fun i => b[(i.val + 1) % 16]

/-- R⁻¹: `B[1..15] || l(B[1..15] || B[0])` (R89). -/
def shiftRInv (b : Block) : Block :=
  Vector.ofFn fun i => if i.val = 15 then ell (rotate b) else b[(i.val + 1) % 16]

/-- L: "R applied 16 times in sequence" (R88). -/
def lin (b : Block) : Block := shiftR^[16] b

/-- L⁻¹: "R⁻¹ applied 16 times" (R90). -/
def linInv (b : Block) : Block := shiftRInv^[16] b

/-- `LSX[K](B) = L(S(X[K](B)))` (R92). -/
def lsx (k b : Block) : Block := lin (sub (xorBlock k b))

/-- The matrix form of a linear map: byte i is ⊕_j gmul(rows[i][j], B[j]) (R98). -/
def matApply (rows : List (List Byte)) (b : Block) : Block := Vector.ofFn fun i => dot (rows.getD i.val []) b

/-- Every byte of a block multiplied by one field scalar: "gmul-scaled A" (R95). -/
def scaleBlock (c : Byte) (b : Block) : Block := Vector.ofFn fun i => gmul c b[i]

end Sys2Proof.Machine
end

