-- ==== Sys2Proof/Machine/BlockTransform.lean ====
section
/-! DEFINITION. The block transform, ENC_BLOCK and DEC_BLOCK (42_block_transform.md R109–R116). -/

namespace Sys2Proof.Machine

/-- RK[1..9], the keys of the full rounds, in order (R109). -/
def fullRoundKeys (rk : Vector Block 10) : List Block := rk.toList.take Config.fullRounds

/-- `E_RK(B)`: `a <- L(S(RK[i] ⊕ a))` for i in 1..9, then `RK[10] ⊕ a` (R109). -/
def encrypt (rk : Vector Block 10) (b : Block) : Block :=
  xorBlock rk[9] ((fullRoundKeys rk).foldl (fun a k => lsx k a) b)

/-- `D_RK(B)`: `a <- RK[10] ⊕ B`, then `a <- RK[i] ⊕ S⁻¹(L⁻¹(a))` for i in 9 down to 1 (R110). -/
def decrypt (rk : Vector Block 10) (b : Block) : Block :=
  (fullRoundKeys rk).reverse.foldl (fun a k => xorBlock k (subInv (linInv a))) (xorBlock rk[9] b)

/-- ENC_BLOCK(n) (R111): InvalidBlockLength unless n = 16, then NoKey unless KEYED (60_exceptions.md R135, R138, R141). -/
def execEncBlock (n : Nat) (s : State) : Result :=
  if n ≠ Config.blockBytes then raiseError .invalidBlockLength s
  else if !s.keyed then raiseError .noKey s
  else succeed (setDout (encrypt s.rk s.din) s)

/-- DEC_BLOCK(n) (R112), with ENC_BLOCK's checks. -/
def execDecBlock (n : Nat) (s : State) : Result :=
  if n ≠ Config.blockBytes then raiseError .invalidBlockLength s
  else if !s.keyed then raiseError .noKey s
  else succeed (setDout (decrypt s.rk s.din) s)

end Sys2Proof.Machine
end

