-- ==== Sys2Proof/Machine/Cfb.lean ====
section
/-! DEFINITION. The CFB mode wrapper: CFB_INIT, CFB_ENC and CFB_DEC (43_cfb_mode.md R117–R127). -/

namespace Sys2Proof.Machine

/-- `KS = E_RK(FR)`, the forward transform in both directions (R118). -/
def keystream (s : State) : Block := encrypt s.rk s.fr

/-- What a chunk of n bytes does to FR and PART: a full chunk advances FR by its ciphertext `ct` (R122); 1 to 15 bytes only set PART
(R123); none changes neither (R124). -/
def advanceMode (n : Nat) (ct : Block) (s : State) : State :=
  if n = Config.blockBytes then setFr ct s else if 1 ≤ n then setPart s else s

/-- CFB_INIT(n) (R119): InvalidIVLength unless n = 16, then NoKey unless KEYED; else FR takes the IV. -/
def execCfbInit (n : Nat) (s : State) : Result :=
  if n ≠ Config.blockBytes then raiseError .invalidIVLength s
  else if !s.keyed then raiseError .noKey s
  else succeed (startMode s.din s)

/-- CFB_ENC(n) (R120): InvalidChunkLength if n > 16, then NoKey, then NoMode; else DOUT is the chunk's ciphertext, and FR takes
DOUT when the chunk is full. -/
def execCfbEnc (n : Nat) (s : State) : Result :=
  if Config.blockBytes < n then raiseError .invalidChunkLength s
  else if !s.keyed then raiseError .noKey s
  else if !s.mode then raiseError .noMode s
  else
    succeed (advanceMode n (chunkOut n s.din (keystream s)) (setDout (chunkOut n s.din (keystream s)) s))

/-- CFB_DEC(n) (R121): as CFB_ENC, but "FR takes the input (DIN), not the output (DOUT)". -/
def execCfbDec (n : Nat) (s : State) : Result :=
  if Config.blockBytes < n then raiseError .invalidChunkLength s
  else if !s.keyed then raiseError .noKey s
  else if !s.mode then raiseError .noMode s
  else succeed (advanceMode n s.din (setDout (chunkOut n s.din (keystream s)) s))

end Sys2Proof.Machine
end

