-- ==== Sys2Proof/Machine/KeySchedule.lean ====
section
/-! DEFINITION. The key schedule and KEY_INIT (41_key_schedule.md R99–R108). -/

namespace Sys2Proof.Machine

/-- `Vec(i) = 0^15 || i` (R99). -/
def vec (i : Nat) : Block := Vector.ofFn fun j => if j.val = 15 then BitVec.ofNat 8 i else 0

/-- The round constant `C[i] = L(Vec(i))`, i in 1..32 (R99). -/
def roundConst (i : Nat) : Block := lin (vec i)

/-- `F[C](a1, a0) = (LSX[C](a1) ⊕ a0, a1)` (R101). -/
def feistel (c : Block) (p : Block × Block) : Block × Block := (xorBlock (lsx c p.1) p.2, p.1)

/-- The 8 iterations of group j, with `C[8·(j−1) + 1]` to `C[8·(j−1) + 8]` (R102). -/
def feistelGroup (p : Block × Block) (j : Nat) : Block × Block :=
  (List.range Config.constGroup).foldl (fun q t => feistel (roundConst (8 * (j - 1) + (t + 1))) q) p

/-- The pair after group j; after none, the key's own halves (R102). -/
def keyPair (k : Key) : Nat → Block × Block
  | 0 => (keyFirst k, keySecond k)
  | j + 1 => feistelGroup (keyPair k j) (j + 1)

/-- `Schedule(K)`: "these two original halves followed by the 8 derived halves, in fixed order" (R102). -/
def schedule (k : Key) : Vector Block 10 :=
  Vector.ofFn fun i => if i.val % 2 = 0 then (keyPair k (i.val / 2)).1 else (keyPair k (i.val / 2)).2

/-- KEY_INIT(n) (R103): InvalidKeyLength unless n = 32 (60_exceptions.md R137); else a new cipher instance. -/
def execKeyInit (n : Nat) (s : State) : Result :=
  if n ≠ Config.keyBytes then raiseError .invalidKeyLength s
  else succeed (bindKey (schedule s.keybuf) s)

end Sys2Proof.Machine
end

