-- ==== Sys2Proof/Machine/Dispatch.lean ====
section
/-! DEFINITION. One arm for each command (30_encoding.md R66). `Execute(cmd)` with the completion's writes (10_state.md R38). -/

namespace Sys2Proof.Machine

def exec (i : Instr) (s : State) : Host.Outcome State Fault Refusal :=
  match i with
  | .keyInit n => Sys2Proof.Machine.execKeyInit n s
  | .encBlock n => Sys2Proof.Machine.execEncBlock n s
  | .decBlock n => Sys2Proof.Machine.execDecBlock n s
  | .cfbInit n => Sys2Proof.Machine.execCfbInit n s
  | .cfbEnc n => Sys2Proof.Machine.execCfbEnc n s
  | .cfbDec n => Sys2Proof.Machine.execCfbDec n s

end Sys2Proof.Machine
end

