-- ==== Sys2Proof/Machine/Agenda.lean ====
section
/-! DEFINITION. Completion (10_state.md R38) and the order in which host accesses, reset and completions happen (20_memory.md
R56). Step.lean only calls what stands here. -/

namespace Sys2Proof.Machine

/-- Completion: decode PEND and execute it; an ILLEGAL word raises IllegalCommand (10_state.md R38; 30_encoding.md R67;
60_exceptions.md R136). It is one transition, so no access sees a part of it (20_memory.md R55). -/
def complete (s : State) : Result :=
  match s.pend with
  | none => .fault .noPendingCommand
  | some w =>
    match decode w with
    | .instr i => exec i s
    | .illegal _ => raiseError .illegalCommand s

/-- The core's turn: completion is "enabled when BUSY = 1" (10_state.md R38); an idle core does nothing, and a core held in reset
has nothing pending (70_reset_and_hazards.md R152). -/
def coreTurn (s : State) : Result := if s.busy && !s.resetLine then complete s else .next s

/-- The host's poll loop (30_encoding.md R73; log 9). While BUSY = 1 the loop goes on, and what ends it is the completion
(70_reset_and_hazards.md R166): the step is that completion and the loop stays next. Else its last read of STATUS is made. While
reset is asserted that read is refused. -/
def hostPoll (s : State) : Result :=
  if s.busy && !s.resetLine then complete (setEvents (.poll :: s.events) s)
  else hostAccess (.read Config.busWidth 0x004) s

/-- One event; `s.events` is what follows it. -/
def handleEvent (e : Event) (s : State) : Result :=
  match e with
  | .access a => hostAccess a s
  | .bus a => busAccess a s
  | .poll => hostPoll s
  | .core => coreTurn s
  | .resetAssert => .next (assertReset s)
  | .resetRelease => .next (releaseReset s)

/-- One step: the next event, or, when none is left, the core's turn, so that "Every accepted command completes after a finite
number of steps" (70_reset_and_hazards.md R166). With no event and BUSY = 0 the machine idles: the run has ended (R168). -/
def advance (s : State) : Result :=
  match s.events with
  | [] => coreTurn s
  | e :: es => handleEvent e (setEvents es s)

/-- The machine with command word w accepted and the core next to move: what `MemWrite(0x000, 4, w)` makes of an idle core
(10_state.md R37), whatever the machine was doing (log 10). -/
def placeCommand (w : Word) (s : State) : State :=
  setEvents (.core :: s.events) (takeCommand w (releaseReset s))

end Sys2Proof.Machine
end

