-- ==== Sys2Proof/Machine/Step.lean ====
section
/-! DEFINITION. One step of the machine, and the placing of a command word as the next thing it runs. -/

namespace Sys2Proof.Machine

/-- One step (Machine/Agenda.lean). -/
def step (s : State) : Host.Outcome State Fault Refusal := Sys2Proof.Machine.advance s

/-- `s` with the command word of a row of spec/opcode_table.json pending and about to complete (log 10): there is no program counter
and no fetch (10_state.md R15; 20_memory.md R59), so the word stands in PEND. -/
def State.withFetchWord (s : State) (nbits w : Nat) : State :=
  Sys2Proof.Machine.placeCommand (tableWord nbits w) s

end Sys2Proof.Machine
end

