-- ==== Sys2Proof/Machine/HostProgram.lean ====
section
/-! DEFINITION. The host's side: the assembler notation (30_encoding.md R72–R75) as lists of events, and the source's stream calls
as host sequences (43_cfb_mode.md R128, R129). -/

namespace Sys2Proof.Machine

/-! ## Host access statements (R73) -/

/-- `wr off, v` (R73). -/
def wr (off : Nat) (v : Word) : Event := .access (.write Config.busWidth off v)

/-- `rd off` (R73). -/
def rd (off : Nat) : Event := .access (.read Config.busWidth off)

/-- Window offsets by name (10_state.md R30). -/
def offCmd : Nat := 0x000
def offStatus : Nat := 0x004
def offInfo : Nat := 0x008
def offKey (k : Nat) : Nat := 0x020 + 4 * k
def offDin (k : Nat) : Nat := 0x040 + 4 * k
def offDout (k : Nat) : Nat := 0x050 + 4 * k
def offFr (k : Nat) : Nat := 0x060 + 4 * k

/-! ## Command mnemonics (R72) -/

/-- A command as the assembler has it; an absent n is `none` (R72). -/
inductive KzCommand where
  | keyinit (n : Option Nat)
  | enc (n : Option Nat)
  | dec (n : Option Nat)
  | cfbinit (n : Option Nat)
  | cfbenc (n : Nat)
  | cfbdec (n : Nat)
  /-- `kz.raw w` "writes an arbitrary word w to CMD". -/
  | raw (w : Word)
deriving DecidableEq, Repr

/-- "The word is `OP | n << 8`, for n in 0..63. An n outside 0..63 is an assembly error" (R72). -/
def assembleInstr (i : Instr) : Option Word := if i.wf then some (encode i) else none

/-- The word a mnemonic assembles to, with R72's defaults; `none` is an assembly error. -/
def KzCommand.word : KzCommand → Option Word
  | .keyinit n => assembleInstr (.keyInit (n.getD 32))
  | .enc n => assembleInstr (.encBlock (n.getD 16))
  | .dec n => assembleInstr (.decBlock (n.getD 16))
  | .cfbinit n => assembleInstr (.cfbInit (n.getD 16))
  | .cfbenc n => assembleInstr (.cfbEnc n)
  | .cfbdec n => assembleInstr (.cfbDec n)
  | .raw w => some w

/-- "Each assembles to one host write `wr 0x000, <word>`" (R72). -/
def KzCommand.program (c : KzCommand) : Option (List Event) := c.word.map fun w => [wr offCmd w]

/-! ## Pseudo-instructions (R74) -/

/-- `kz.loadkey K` (R74). -/
def kzLoadKey (k : Key) : List Event := (List.finRange 8).map fun i => wr (offKey i.val) (keyWord k i)

/-- The word of bytes 4k to 4k+3 of `bs`; "Bytes past m in the last word are written as 0x00" (R74). -/
def paddedWord (bs : List Byte) (k : Nat) : Word :=
  packLanes (bs.getD (4 * k) 0) (bs.getD (4 * k + 1) 0) (bs.getD (4 * k + 2) 0) (bs.getD (4 * k + 3) 0)

/-- The writes of `DIN0 .. DIN⌈m/4⌉−1` for the m bytes `bs` (R74). -/
def loadInBytes (bs : List Byte) : List Event :=
  (List.range ((bs.length + 3) / 4)).map fun k => wr (offDin k) (paddedWord bs k)

/-- `kz.loadin B, m`, "with m ≤ 16 bytes of B"; `kz.loadin B` is m = 16 (R74). -/
def kzLoadIn (b : Block) (m : Nat) : Option (List Event) :=
  if m ≤ 16 then some (loadInBytes (b.toList.take m)) else none

/-- `kz.readout` (R74). -/
def kzReadOut : List Event := (List.range 4).map fun k => rd (offDout k)

/-- `kz.readfr` (R74). -/
def kzReadFr : List Event := (List.range 4).map fun k => rd (offFr k)

/-- `kz.wait` (R74). -/
def kzWait : List Event := [.poll]

/-- `kz.clrovr` (R74). -/
def kzClrOvr : List Event := [wr offStatus 0x00000010]

/-- `kz.do c`: c followed by `poll` (R74). -/
def kzDo (c : KzCommand) : Option (List Event) := c.program.map (· ++ [.poll])

/-! ## Runs -/

/-- `k` steps, stopping at the first fault or refusal. -/
def run : Nat → State → Result
  | 0, s => .next s
  | k + 1, s =>
    match step s with
    | .next t => run k t
    | .fault r => .fault r
    | .refused r => .refused r

/-- Let the machine run the events `es` next, and only them. Every event takes one step, a poll at most two, so this many steps end
them all with nothing pending (70_reset_and_hazards.md R166, R168). -/
def runEvents (es : List Event) (s : State) : Result := run (2 * es.length + 1) (setEvents es s)

/-! ## Stream operations (R75, R128, R129) -/

/-- The consecutive chunks of 16 bytes with a shorter last one; none for no bytes. `fuel` bounds their number (R128). -/
def chunksFuel : Nat → List Byte → List (List Byte)
  | 0, _ => []
  | fuel + 1, bs => if bs.isEmpty then [] else bs.take 16 :: chunksFuel fuel (bs.drop 16)

/-- "processes the input in consecutive chunks" (R128). -/
def chunks (bs : List Byte) : List (List Byte) := chunksFuel bs.length bs

/-- Load a chunk, issue its command and poll (R128). `op` is CFB_ENC or CFB_DEC. -/
def chunkProgram (op : Nat → Instr) (c : List Byte) : List Event :=
  loadInBytes c ++ [wr offCmd (encode (op c.length)), .poll]

/-- The expansion of `kz.cfbencrypt P` (with CFB_ENC) and of `kz.cfbdecrypt C` (with CFB_DEC): "`kz.loadin`, `kz.do …` and
`kz.readout` per chunk" (R75). -/
def streamProgram (op : Nat → Instr) (bs : List Byte) : List Event :=
  (chunks bs).flatMap fun c => chunkProgram op c ++ kzReadOut

/-- STATUS.ERR as the host reads it when its read is permitted (10_state.md R32; log 16). -/
def readErr (s : State) : BitVec 4 := (memRead offStatus s).extractLsb' 8 4

/-- The bytes `kz.readout` gives the host when its reads are permitted, DOUT[0] first (R74; 20_memory.md R47; log 16). -/
def readOutBytes (s : State) : List Byte :=
  (List.range 4).flatMap fun k => (List.range 4).map fun j => laneByte (memRead (offDout k) s) j

/-- The call over its chunks: run each chunk; "if STATUS.ERR != 0: stop; the call fails and returns no output"; else its output is
the first c bytes of DOUT (R128). `none` is also the answer when an event stops the model, and when the core is held in reset, where
the reads of STATUS and DOUT are refused and give the host no value to go on (DESIGN CHOICE, log 16). An earlier command still pending
when the call begins completes at the call's first poll, not before its loads and its CMD write, which are dropped (DESIGN CHOICE,
log 17). -/
def streamChunks (op : Nat → Instr) : List (List Byte) → State → Option (List Byte) × State
  | [], s => (some [], s)
  | c :: cs, s =>
    match runEvents (chunkProgram op c) s with
    | .fault _ => (none, s)
    | .refused _ => (none, s)
    | .next t =>
      if t.resetLine then (none, t)
      else if readErr t ≠ 0 then (none, t)
      else
        match runEvents kzReadOut t with
        | .fault _ => (none, t)
        | .refused _ => (none, t)
        | .next u =>
          match streamChunks op cs u with
          | (none, v) => (none, v)
          | (some out, v) => (some ((readOutBytes t).take c.length ++ out), v)

/-- The source's `Encrypt(plaintext)` as the host sequence of R128: its output, if it has one, and the machine after it. -/
def callEncrypt (p : List Byte) (s : State) : Option (List Byte) × State := streamChunks .cfbEnc (chunks p) s

/-- The source's `Decrypt(ciphertext)`: "the same sequence with `kz.cfbdec c`" (R129). -/
def callDecrypt (c : List Byte) (s : State) : Option (List Byte) × State := streamChunks .cfbDec (chunks c) s

end Sys2Proof.Machine
end

