-- ==== Sys2Proof/Machine/Timed.lean ====
section
/-! DEFINITION. The interleaving that given latencies make: LAT_KEY_INIT, LAT_BLOCK and LAT_CFB as arguments (00_scope.md R9). The
step itself has no time (70_reset_and_hazards.md R164): it only follows the order built here, or any other. -/

namespace Sys2Proof.Machine

/-- The latencies of R9, in cycles from accept to completion. R9 names none for a word that decodes to ILLEGAL; `illegal` is that
word's, just as open (log 2). -/
structure Latencies where
  keyInit : Nat
  block : Nat
  cfb : Nat
  illegal : Nat
deriving DecidableEq, Repr

/-- "any finite value ≥ 1" (R9). -/
def Latencies.legal (l : Latencies) : Bool :=
  decide (1 ≤ l.keyInit) && decide (1 ≤ l.block) && decide (1 ≤ l.cfb) && decide (1 ≤ l.illegal)

/-- The latency of a command word (R9). -/
def Latencies.of (l : Latencies) (w : Word) : Nat :=
  match decode w with
  | .instr (.keyInit _) => l.keyInit
  | .instr (.encBlock _) => l.block
  | .instr (.decBlock _) => l.block
  | .instr (.cfbInit _) => l.cfb
  | .instr (.cfbEnc _) => l.cfb
  | .instr (.cfbDec _) => l.cfb
  | .illegal _ => l.illegal

/-- The command word a permitted access writes to CMD, if it is one (10_state.md R31, R37). -/
def commandOf (a : Access) : Option Word :=
  match a with
  | .read _ _ => none
  | .write w off v => if w = Config.busWidth ∧ off = offCmd then some v else none

/-- The events of a host that makes each access at its cycle, the cycles rising, on a core that starts idle (`due` = none) or
completes at cycle `due`. A completion due at the cycle of an access comes before it. A CMD write while one is due is dropped by the
core and starts nothing (10_state.md R37). -/
def timedEvents (l : Latencies) : Option Nat → List (Nat × Access) → List Event
  | none, [] => []
  | some _, [] => [.core]
  | none, (t, a) :: rest => .access a :: timedEvents l ((commandOf a).map fun w => t + l.of w) rest
  | some d, (t, a) :: rest =>
    if d ≤ t then .core :: .access a :: timedEvents l ((commandOf a).map fun w => t + l.of w) rest
    else .access a :: timedEvents l (some d) rest

end Sys2Proof.Machine
end

