-- ==== Sys2Proof/Safety.lean ====
section
/-! DEFINITION. What claims speak of: the invariants of 10_state.md R29, the states of the mode instance (43_cfb_mode.md R131), runs,
their ends and the refused accesses in them (70_reset_and_hazards.md R168). -/

namespace Sys2Proof.Machine

/-- "Invariants that every reachable state satisfies" (10_state.md R29), all four. -/
structure Inv (s : State) : Prop where
  mode_keyed : s.mode = true → s.keyed = true
  part_mode : s.part = true → s.mode = true
  busy_iff_pending : s.busy = false ↔ s.pend = none
  keyed_schedule : s.keyed = true → s.rk = schedule (boundKey s.rk)

/-- What else every reachable state satisfies: reserved ERR codes are "never produced" (60_exceptions.md R132); without an instance
the registers it would have written still hold their reset values (10_state.md R41); a core held in reset is at its reset values
(70_reset_and_hazards.md R151). -/
structure Settled (s : State) : Prop where
  err_legal : s.err.toNat ≤ 7
  unkeyed_rk : s.keyed = false → s.rk = Vector.replicate 10 zeroBlock
  unkeyed_dout : s.keyed = false → s.dout = zeroBlock
  unmoded_fr : s.mode = false → s.fr = zeroBlock
  held_in_reset : s.resetLine = true → s = assertReset s

/-- The states of the mode instance (43_cfb_mode.md R131). Initialized and Advanced differ only in what FR holds, which no flag shows,
so they are one here: `running`. -/
inductive ModeState where
  | none
  | running
  | ended
deriving DecidableEq, Repr

/-- The condition column of 43_cfb_mode.md R131. -/
def modeState (s : State) : ModeState :=
  if s.mode then (if s.part then .ended else .running) else .none

/-- The state of the core alone: `s` without the model's own fields. Two machines with equal cores are one core. -/
def coreOf (s : State) : State := { s with resetLine := false, events := [], seen := [] }

/-- "A run of a host program ends when the host has made its last access and BUSY = 0, so that no command is pending"
(70_reset_and_hazards.md R168). -/
def RunEnded (s : State) : Prop := s.events = [] ∧ s.busy = false

/-- "no access was refused", the premise a claim about a run may take (70_reset_and_hazards.md R168). -/
def NoneRefused (s : State) : Prop := ∀ a, Response.refused a ∉ s.seen

/-- An access of the host's inside the window: "The host is assumed never to make an access outside the window"
(70_reset_and_hazards.md R167). -/
def Event.inWindow : Event → Bool
  | .access a => decide (a.offset < Config.windowBytes)
  | .bus a => (windowOffset a.offset).isSome
  | .poll => true
  | .core => true
  | .resetAssert => true
  | .resetRelease => true

/-- A run of `k` steps that no stop cuts short, and in which no access was refused. -/
def SafeRun (k : Nat) (s t : State) : Prop := run k s = .next t ∧ NoneRefused t

end Sys2Proof.Machine
end

