-- ==== Sys2Proof/Certificates/Slice0/Obligations.lean ====
section
/-! DEFINITION. The statements about the Kuznyechik CORE, one definition each; OBLIGATIONS.json lists them. -/

open Sys2Proof Sys2Proof.Machine

/-! ## Encoding -/

/-- The words of 30_encoding.md R76, written out there from the format of R64, decode to the commands they stand for. -/
def Obligations.WrittenWordsDecode : Prop :=
  decode 0x00002001 = .instr (.keyInit 32) ∧ decode 0x00001F01 = .instr (.keyInit 31) ∧
  decode 0x00002101 = .instr (.keyInit 33) ∧ decode 0x00001002 = .instr (.encBlock 16) ∧
  decode 0x00001003 = .instr (.decBlock 16) ∧ decode 0x00001004 = .instr (.cfbInit 16) ∧
  decode 0x00000F04 = .instr (.cfbInit 15) ∧ decode 0x00001005 = .instr (.cfbEnc 16) ∧
  decode 0x00000405 = .instr (.cfbEnc 4) ∧ decode 0x00000005 = .instr (.cfbEnc 0) ∧
  decode 0x00001006 = .instr (.cfbDec 16) ∧ decode 0x00001106 = .instr (.cfbDec 17) ∧
  decode 0x00000000 = .illegal .reservedOp ∧ decode 0x00001012 = .illegal .reservedBits

/-- Decode and encode agree in both directions: a word decodes to a command exactly when the command is well formed and the word is
its encoding (30_encoding.md R64–R67). So every legal word has one meaning and every command one word. -/
def Obligations.DecodeEncodeAgree : Prop :=
  ∀ (w : Word) (i : Instr), decode w = .instr i ↔ i.wf = true ∧ encode i = w

/-- Reserved OP values and set reserved bits decode to ILLEGAL and complete with IllegalCommand (4) and no other effect
(30_encoding.md R68, R69). No other word does. -/
def Obligations.ReservedWordsRaiseIllegalCommand : Prop :=
  ∀ (s : State) (w : Word), s.pend = some w →
    ((w.extractLsb' 0 4 = 0 ∨ 7 ≤ (w.extractLsb' 0 4).toNat ∨
        ∃ k, (4 ≤ k ∧ k ≤ 7 ∨ 14 ≤ k ∧ k ≤ 31) ∧ w.getLsbD k = true) →
      (∃ y, decode w = .illegal y) ∧
      complete s = .next { s with err := 4, pend := none, busy := false }) ∧
    (¬(w.extractLsb' 0 4 = 0 ∨ 7 ≤ (w.extractLsb' 0 4).toNat ∨
        ∃ k, (4 ≤ k ∧ k ≤ 7 ∨ 14 ≤ k ∧ k ≤ 31) ∧ w.getLsbD k = true) →
      (∃ i, decode w = .instr i) ∧ ∃ t, complete s = .next t ∧ t.err ≠ 4)

/-- The rows of the opcode map: a word is a command exactly when `w & 0xFFFFC0FF` is its OP, and n is bits 13:8 (30_encoding.md R65,
R66; opcode_table.json). -/
def Obligations.RowsMatchTheirMasks : Prop :=
  ∀ w : Word,
    ((∃ n, decode w = .instr (.keyInit n)) ↔ w &&& 0xFFFFC0FF = 0x1) ∧
    ((∃ n, decode w = .instr (.encBlock n)) ↔ w &&& 0xFFFFC0FF = 0x2) ∧
    ((∃ n, decode w = .instr (.decBlock n)) ↔ w &&& 0xFFFFC0FF = 0x3) ∧
    ((∃ n, decode w = .instr (.cfbInit n)) ↔ w &&& 0xFFFFC0FF = 0x4) ∧
    ((∃ n, decode w = .instr (.cfbEnc n)) ↔ w &&& 0xFFFFC0FF = 0x5) ∧
    ((∃ n, decode w = .instr (.cfbDec n)) ↔ w &&& 0xFFFFC0FF = 0x6) ∧
    ∀ i, decode w = .instr i → i.len = ((w >>> 8) &&& 0x3F).toNat

/-- Each command mnemonic assembles to one write of `OP | n << 8` to CMD; n outside 0..63 is an assembly error; an absent n takes its
default (30_encoding.md R72). -/
def Obligations.MnemonicsAssembleToOneWrite : Prop :=
  (∀ n : Nat, n ≤ 63 →
    (KzCommand.keyinit (some n)).program = some [wr 0x000 (0x1 ||| BitVec.ofNat 32 n <<< 8)] ∧
    (KzCommand.enc (some n)).program = some [wr 0x000 (0x2 ||| BitVec.ofNat 32 n <<< 8)] ∧
    (KzCommand.dec (some n)).program = some [wr 0x000 (0x3 ||| BitVec.ofNat 32 n <<< 8)] ∧
    (KzCommand.cfbinit (some n)).program = some [wr 0x000 (0x4 ||| BitVec.ofNat 32 n <<< 8)] ∧
    (KzCommand.cfbenc n).program = some [wr 0x000 (0x5 ||| BitVec.ofNat 32 n <<< 8)] ∧
    (KzCommand.cfbdec n).program = some [wr 0x000 (0x6 ||| BitVec.ofNat 32 n <<< 8)]) ∧
  (∀ n : Nat, 63 < n →
    (KzCommand.keyinit (some n)).program = none ∧ (KzCommand.enc (some n)).program = none ∧
    (KzCommand.dec (some n)).program = none ∧ (KzCommand.cfbinit (some n)).program = none ∧
    (KzCommand.cfbenc n).program = none ∧ (KzCommand.cfbdec n).program = none) ∧
  (KzCommand.keyinit none).program = (KzCommand.keyinit (some 32)).program ∧
  (KzCommand.enc none).program = (KzCommand.enc (some 16)).program ∧
  (KzCommand.dec none).program = (KzCommand.dec (some 16)).program ∧
  (KzCommand.cfbinit none).program = (KzCommand.cfbinit (some 16)).program ∧
  ∀ w : Word, (KzCommand.raw w).program = some [wr 0x000 w]

/-! ## The step -/

/-- A step at which the core completes runs the decoded command: with no event left and under a poll, `exec` at the state itself; at
the core's turn, `exec` once the turn is taken off the list. An ILLEGAL word raises IllegalCommand there. A placed word runs next
(10_state.md R38; 30_encoding.md R67). The model's choices in it: the event list and the completion with no event left (log 1), a poll
that completes the command and stays next (log 9), and the placing of a word, on a busy core too (log 10). -/
def Obligations.StepRunsThePendingCommand : Prop :=
  (∀ (s : State) (w : Word), s.busy = true → s.resetLine = false → s.pend = some w →
    (∀ i, decode w = .instr i →
      (s.events = [] → step s = exec i s) ∧
      (∀ es, s.events = .poll :: es → step s = exec i s) ∧
      (∀ es, s.events = .core :: es → step s = exec i { s with events := es })) ∧
    (∀ y, decode w = .illegal y →
      (s.events = [] → step s = .next { s with err := 4, pend := none, busy := false }) ∧
      (∀ es, s.events = .poll :: es → step s = .next { s with err := 4, pend := none, busy := false }) ∧
      (∀ es, s.events = .core :: es →
        step s = .next { s with err := 4, pend := none, busy := false, events := es }))) ∧
  (∀ (s : State) (w : Nat) (i : Instr), decodeTableWord 32 w = some i →
    step (s.withFetchWord 32 w) =
      exec i { s with pend := some (BitVec.ofNat 32 (w % 2 ^ 32)), busy := true, resetLine := false })

/-- A poll ends by the completion and reads the results with it: two steps later the loop is gone, BUSY is 0, and the host has read
the STATUS of the completed command (20_memory.md R55, R57; 30_encoding.md R73; log 9). -/
def Obligations.PollReadsTheCompletedStatus : Prop :=
  ∀ (s : State) (w : Word) (es : List Event), s.events = .poll :: es → s.busy = true → s.resetLine = false →
    s.pend = some w →
    ∃ c t, complete s = .next c ∧ run 2 s = .next t ∧ coreOf t = coreOf c ∧ t.busy = false ∧ t.events = es ∧
      t.seen = .value 0x004 (statusWord c) :: s.seen

/-! ## What each command does -/

/-- KEY_INIT completes in every state: with n = 32 it binds the schedule of KEYBUF and ends the mode instance; with any other n it
raises InvalidKeyLength (1) and changes nothing else (41_key_schedule.md R103–R105; 60_exceptions.md R137). -/
def Obligations.KeyInitCompletes : Prop :=
  ∀ s : State,
    exec (.keyInit 32) s = .next { s with rk := schedule s.keybuf, keyed := true, mode := false, part := false, fr := zeroBlock, err := 0, pend := none, busy := false } ∧
    ∀ n, n ≠ 32 → exec (.keyInit n) s = .next { s with err := 1, pend := none, busy := false }

/-- The schedule: RK[1] and RK[2] are the key's halves, and each later pair is the pair before it after 8 Feistel iterations with
the next 8 round constants (41_key_schedule.md R102). -/
def Obligations.RoundKeysFollowTheSchedule : Prop :=
  ∀ k : Key,
    (∀ i : Fin 16, (schedule k)[0][i] = k[i.val] ∧ (schedule k)[1][i] = k[16 + i.val]) ∧
    ∀ j : Fin 4, ((schedule k)[2 * j.val + 2], (schedule k)[2 * j.val + 3]) =
      (List.range 8).foldl
        (fun p t => (xorBlock (lin (sub (xorBlock (roundConst (8 * j.val + t + 1)) p.1))) p.2, p.1))
        ((schedule k)[2 * j.val], (schedule k)[2 * j.val + 1])

/-- ENC_BLOCK completes with n = 16 and KEYED = 1: DOUT is `RK[10] ⊕ a` after nine rounds `a <- L(S(RK[i] ⊕ a))` from DIN, and nothing
else changes but ERR, PEND and BUSY (42_block_transform.md R109, R111). -/
def Obligations.EncBlockCompletes : Prop :=
  ∀ s : State, s.keyed = true → ∃ out : Block,
    exec (.encBlock 16) s = .next { s with dout := out, err := 0, pend := none, busy := false } ∧
    ∀ a : Nat → Block, a 0 = s.din → (∀ i : Fin 9, a (i.val + 1) = lin (sub (xorBlock s.rk[i.val] (a i.val)))) →
      out = xorBlock s.rk[9] (a 9)

/-- DEC_BLOCK completes with n = 16 and KEYED = 1: DOUT is what is left after `a <- RK[10] ⊕ DIN` and the rounds
`a <- RK[i] ⊕ S⁻¹(L⁻¹(a))` for i from 9 down to 1, and nothing else changes but ERR, PEND and BUSY (42_block_transform.md R110, R112). -/
def Obligations.DecBlockCompletes : Prop :=
  ∀ s : State, s.keyed = true → ∃ out : Block,
    exec (.decBlock 16) s = .next { s with dout := out, err := 0, pend := none, busy := false } ∧
    ∀ a : Nat → Block, a 9 = xorBlock s.rk[9] s.din →
      (∀ i : Fin 9, a i.val = xorBlock s.rk[i.val] (subInv (linInv (a (i.val + 1))))) → out = a 0

/-- CFB_INIT completes with n = 16 and KEYED = 1: FR takes DIN, MODE is 1, PART is 0; nothing else changes but ERR, PEND and BUSY
(43_cfb_mode.md R119). -/
def Obligations.CfbInitCompletes : Prop :=
  ∀ s : State, s.keyed = true →
    exec (.cfbInit 16) s = .next { s with fr := s.din, mode := true, part := false, err := 0, pend := none, busy := false }

/-- CFB_ENC completes for every n up to 16 with KEYED = MODE = 1: the chunk's bytes are XORed with the keystream and the rest of DOUT
is 0; a full chunk moves FR to DOUT; 1 to 15 bytes set PART; nothing else changes but ERR, PEND and BUSY (43_cfb_mode.md R120). -/
def Obligations.CfbEncCompletes : Prop :=
  ∀ (s : State) (n : Nat), n ≤ 16 → s.keyed = true → s.mode = true → ∃ t, exec (.cfbEnc n) s = .next t ∧
    (∀ i : Fin 16, t.dout[i] = if i.val < n then s.din[i] ^^^ (encrypt s.rk s.fr)[i] else 0) ∧
    t = { s with dout := t.dout, fr := if n = 16 then t.dout else s.fr, part := s.part || decide (1 ≤ n ∧ n ≤ 15), err := 0, pend := none, busy := false }

/-- CFB_DEC completes like CFB_ENC, but a full chunk moves FR to DIN, the ciphertext, not to DOUT (43_cfb_mode.md R121, R122). -/
def Obligations.CfbDecCompletes : Prop :=
  ∀ (s : State) (n : Nat), n ≤ 16 → s.keyed = true → s.mode = true → ∃ t, exec (.cfbDec n) s = .next t ∧
    (∀ i : Fin 16, t.dout[i] = if i.val < n then s.din[i] ^^^ (encrypt s.rk s.fr)[i] else 0) ∧
    t = { s with dout := t.dout, fr := if n = 16 then s.din else s.fr, part := s.part || decide (1 ≤ n ∧ n ≤ 15), err := 0, pend := none, busy := false }

/-! ## Errors and write sets -/

/-- The result code of every completion, from the word's bits and KEYED and MODE alone, in the priority order IllegalCommand, length,
NoKey, NoMode; and a completion that raises writes nothing but ERR, PEND and BUSY (60_exceptions.md R133–R135, R137–R142). -/
def Obligations.CompletionReportsFirstError : Prop :=
  ∀ (s : State) (w : Word), s.pend = some w → ∃ t, complete s = .next t ∧ t.pend = none ∧ t.busy = false ∧
    (t.err ≠ 0 → t = { s with err := t.err, pend := none, busy := false }) ∧
    t.err =
      (if w.extractLsb' 14 18 ≠ 0 ∨ w.extractLsb' 4 4 ≠ 0 ∨ w.extractLsb' 0 4 = 0 ∨ 7 ≤ (w.extractLsb' 0 4).toNat then 4
      else if w.extractLsb' 0 4 = 1 ∧ w.extractLsb' 8 6 ≠ 32 then 1
      else if (w.extractLsb' 0 4 = 2 ∨ w.extractLsb' 0 4 = 3) ∧ w.extractLsb' 8 6 ≠ 16 then 2
      else if w.extractLsb' 0 4 = 4 ∧ w.extractLsb' 8 6 ≠ 16 then 3
      else if 5 ≤ (w.extractLsb' 0 4).toNat ∧ 16 < (w.extractLsb' 8 6).toNat then 7
      else if w.extractLsb' 0 4 ≠ 1 ∧ s.keyed = false then 5
      else if 5 ≤ (w.extractLsb' 0 4).toNat ∧ s.mode = false then 6
      else 0)

/-- The frame of every command: no command touches KEYBUF, DIN, OVR or what the host has got back; each leaves what the write-set table
does not list for it (10_state.md R41; R17–R21; 42_block_transform.md R115). -/
def Obligations.CommandsKeepWhatTheyDoNotWrite : Prop :=
  ∀ (i : Instr) (s t : State), exec i s = .next t →
    t.keybuf = s.keybuf ∧ t.din = s.din ∧ t.ovr = s.ovr ∧ t.resetLine = s.resetLine ∧ t.events = s.events ∧
    t.seen = s.seen ∧ t.pend = none ∧ t.busy = false ∧
    match i with
    | .keyInit _ => t.dout = s.dout
    | .encBlock _ => t.rk = s.rk ∧ t.keyed = s.keyed ∧ t.fr = s.fr ∧ t.mode = s.mode ∧ t.part = s.part
    | .decBlock _ => t.rk = s.rk ∧ t.keyed = s.keyed ∧ t.fr = s.fr ∧ t.mode = s.mode ∧ t.part = s.part
    | .cfbInit _ => t.rk = s.rk ∧ t.keyed = s.keyed ∧ t.dout = s.dout
    | .cfbEnc n => t.rk = s.rk ∧ t.keyed = s.keyed ∧ t.mode = s.mode ∧ (n ≠ 16 → t.fr = s.fr) ∧
        (n = 0 ∨ 16 ≤ n → t.part = s.part)
    | .cfbDec n => t.rk = s.rk ∧ t.keyed = s.keyed ∧ t.mode = s.mode ∧ (n ≠ 16 → t.fr = s.fr) ∧
        (n = 0 ∨ 16 ≤ n → t.part = s.part)

/-- After a successful KEY_INIT `RK[1] || RK[2]` is the key it read, and no step but a successful KEY_INIT's completion or reset changes
RK (41_key_schedule.md R106). -/
def Obligations.OnlyKeyInitOrResetChangesRoundKeys : Prop :=
  (∀ s t : State, exec (.keyInit 32) s = .next t →
    ∀ i : Fin 16, t.rk[0][i] = s.keybuf[i.val] ∧ t.rk[1][i] = s.keybuf[16 + i.val]) ∧
  ∀ s t : State, step s = .next t → t.rk ≠ s.rk →
    (∃ es, s.events = .resetAssert :: es) ∨ (s.busy = true ∧ s.pend = some 0x00002001 ∧ t.err = 0)

/-- Who changes KEYED, MODE and PART, over every step that is not a reset: KEYED is never cleared and only KEY_INIT sets it; only
CFB_INIT sets MODE and only KEY_INIT clears it; only a chunk of 1 to 15 bytes sets PART and only CFB_INIT or KEY_INIT clears it
(10_state.md R22–R24; 30_encoding.md R66 for the words). -/
def Obligations.InstanceFlagsChangeOnlyByTheirCommands : Prop :=
  ∀ s t : State, step s = .next t → (∀ es, s.events ≠ .resetAssert :: es) →
    (s.keyed = true → t.keyed = true) ∧
    (s.keyed = false → t.keyed = true → s.pend = some 0x00002001) ∧
    (s.mode = false → t.mode = true → s.pend = some 0x00001004) ∧
    (s.mode = true → t.mode = false → s.pend = some 0x00002001) ∧
    (s.part = true → t.part = false → s.pend = some 0x00002001 ∨ s.pend = some 0x00001004) ∧
    (s.part = false → t.part = true → ∃ w n, s.pend = some w ∧ 1 ≤ n ∧ n ≤ 15 ∧
      (decode w = .instr (.cfbEnc n) ∨ decode w = .instr (.cfbDec n)))

/-! ## Invariants -/

/-- Both invariants hold right after reset (70_reset_and_hazards.md R151). -/
def Obligations.ResetSatisfiesInvariants : Prop := Inv State.reset ∧ Settled State.reset

/-- Every step, from any state that satisfies the four invariants of 10_state.md R29, keeps them. -/
def Obligations.StepKeepsInvariants : Prop := ∀ s t : State, Inv s → step s = .next t → Inv t

/-- The four invariants of 10_state.md R29 hold in every state that any run from reset reaches, whatever the host does: `es` is any
list of host accesses, polls, resets and turns of the core (that list is the model's form of "every run", log 1). -/
def Obligations.ReachableStatesSatisfyInvariants : Prop :=
  ∀ (es : List Event) (k : Nat) (t : State), run k { State.reset with events := es } = .next t → Inv t

/-- Every step keeps what `Settled` says: reserved ERR codes never appear, registers no instance has written hold their reset values,
and a core held in reset stays at its reset values (60_exceptions.md R132; 10_state.md R41; 70_reset_and_hazards.md R151, R152). The
reset level is the model's own field (log 1, log 5). -/
def Obligations.StepKeepsSettled : Prop := ∀ s t : State, Settled s → step s = .next t → Settled t

/-! ## The register window -/

/-- A read of STATUS is the word of 10_state.md R32; the reserved bits read 0, and after reset the word is 0. -/
def Obligations.StatusReadsItsFields : Prop :=
  (∀ s : State,
    memRead 0x004 s = (s.err.setWidth 32 <<< 8) ||| ((BitVec.ofBool s.ovr).setWidth 32 <<< 4) |||
      ((BitVec.ofBool s.part).setWidth 32 <<< 3) ||| ((BitVec.ofBool s.mode).setWidth 32 <<< 2) |||
      ((BitVec.ofBool s.keyed).setWidth 32 <<< 1) ||| (BitVec.ofBool s.busy).setWidth 32 ∧
    (memRead 0x004 s).extractLsb' 5 3 = 0 ∧ (memRead 0x004 s).extractLsb' 12 20 = 0) ∧
  memRead 0x004 State.reset = 0

/-- A write to STATUS clears OVR when bit 4 is set, ignores every other bit, and does so even while BUSY = 1 (10_state.md R33). -/
def Obligations.StatusWriteClearsOverrun : Prop :=
  ∀ (s : State) (w : Word), memWrite 0x004 w s = { s with ovr := if w.getLsbD 4 then false else s.ovr }

/-- Reserved offsets read 0 and ignore writes (10_state.md R36); INFO is 0x010A2010 and ignores writes (R34); DOUT and FR ignore
writes, and CMD reads 0 (R31, R35). -/
def Obligations.ReservedAndReadOnlyOffsets : Prop :=
  (∀ (off : Nat) (v : Word) (s : State), off % 4 = 0 → (0x00C ≤ off ∧ off ≤ 0x01C ∨ 0x070 ≤ off ∧ off ≤ 0x0FC) →
    memRead off s = 0 ∧ memWrite off v s = s) ∧
  (∀ (v : Word) (s : State), memRead 0x008 s = 0x010A2010 ∧ memWrite 0x008 v s = s ∧ memRead 0x000 s = 0) ∧
  ∀ (k : Fin 4) (v : Word) (s : State), memWrite (0x050 + 4 * k.val) v s = s ∧ memWrite (0x060 + 4 * k.val) v s = s

/-- A read of a data word: big-endian lanes in DIN, DOUT and FR, and 0 from KEY (20_memory.md R48). -/
def Obligations.DataWindowsReadBigEndian : Prop :=
  ∀ s : State,
    (∀ k : Fin 4,
      memRead (0x040 + 4 * k.val) s = (s.din[4 * k.val].setWidth 32 <<< 24) ||| (s.din[4 * k.val + 1].setWidth 32 <<< 16) |||
        (s.din[4 * k.val + 2].setWidth 32 <<< 8) ||| s.din[4 * k.val + 3].setWidth 32 ∧
      memRead (0x050 + 4 * k.val) s = (s.dout[4 * k.val].setWidth 32 <<< 24) ||| (s.dout[4 * k.val + 1].setWidth 32 <<< 16) |||
        (s.dout[4 * k.val + 2].setWidth 32 <<< 8) ||| s.dout[4 * k.val + 3].setWidth 32 ∧
      memRead (0x060 + 4 * k.val) s = (s.fr[4 * k.val].setWidth 32 <<< 24) ||| (s.fr[4 * k.val + 1].setWidth 32 <<< 16) |||
        (s.fr[4 * k.val + 2].setWidth 32 <<< 8) ||| s.fr[4 * k.val + 3].setWidth 32) ∧
    ∀ k : Fin 8, memRead (0x020 + 4 * k.val) s = 0

/-- A write of a data word: dropped with OVR set while BUSY = 1; else the four bytes of that word of KEYBUF or DIN and nothing else;
and no effect on DOUT and FR (20_memory.md R49). -/
def Obligations.DataWindowWrites : Prop :=
  ∀ (s : State) (v : Word),
    (∀ k : Fin 8,
      (s.busy = true → memWrite (0x020 + 4 * k.val) v s = { s with ovr := true }) ∧
      (s.busy = false → ∃ b : Key, memWrite (0x020 + 4 * k.val) v s = { s with keybuf := b } ∧
        b[4 * k.val] = v.extractLsb' 24 8 ∧ b[4 * k.val + 1] = v.extractLsb' 16 8 ∧
        b[4 * k.val + 2] = v.extractLsb' 8 8 ∧ b[4 * k.val + 3] = v.extractLsb' 0 8 ∧
        ∀ i : Fin 32, i.val / 4 ≠ k.val → b[i] = s.keybuf[i])) ∧
    (∀ k : Fin 4,
      (s.busy = true → memWrite (0x040 + 4 * k.val) v s = { s with ovr := true }) ∧
      (s.busy = false → ∃ b : Block, memWrite (0x040 + 4 * k.val) v s = { s with din := b } ∧
        b[4 * k.val] = v.extractLsb' 24 8 ∧ b[4 * k.val + 1] = v.extractLsb' 16 8 ∧
        b[4 * k.val + 2] = v.extractLsb' 8 8 ∧ b[4 * k.val + 3] = v.extractLsb' 0 8 ∧
        ∀ i : Fin 16, i.val / 4 ≠ k.val → b[i] = s.din[i])) ∧
    ∀ off, 0x050 ≤ off → off ≤ 0x06C → off % 4 = 0 → memWrite off v s = s

/-- Accept: a write to CMD makes an idle core pending with that word, whatever it is; a busy core drops it and sets OVR
(10_state.md R37). -/
def Obligations.CommandWriteIsAcceptedOrDropped : Prop :=
  ∀ (s : State) (w : Word), memWrite 0x000 w s =
    if s.busy = false then { s with pend := some w, busy := true } else { s with ovr := true }

/-- OVR over every write in the window: STATUS bit 4 clears it; a write to CMD, KEY or DIN while BUSY = 1 sets it; no other write
changes it (10_state.md R27, R33; 60_exceptions.md R143). -/
def Obligations.OverrunFollowsDroppedWrites : Prop :=
  ∀ (off : Nat) (v : Word) (s : State), off < 0x100 → off % 4 = 0 →
    (memWrite off v s).ovr =
      if off = 0x004 then s.ovr && !v.getLsbD 4
      else if s.busy = true ∧ (off = 0x000 ∨ 0x020 ≤ off ∧ off < 0x050) then true
      else s.ovr

/-- A host access, wherever it is made, never writes DOUT, FR, RK, KEYED, MODE, PART or ERR, and a read changes nothing but the host's
record (10_state.md R16 "written by"; 20_memory.md R54; the record is the model's, log 3). -/
def Obligations.HostAccessFrame : Prop :=
  ∀ (a : Access) (s t : State), hostAccess a s = .next t ∨ busAccess a s = .next t →
    t.dout = s.dout ∧ t.fr = s.fr ∧ t.rk = s.rk ∧ t.keyed = s.keyed ∧ t.mode = s.mode ∧ t.part = s.part ∧
    t.err = s.err ∧ t.resetLine = s.resetLine ∧ t.events = s.events ∧
    (a.isWrite = false → t = { s with seen := t.seen }) ∧ (a.isWrite = true → s.busy = true → t.pend = s.pend)

/-- Which accesses the core carries out: an aligned 32-bit one in the window reads or writes; any other in the window is refused,
changes no state, OVR included, and the host sees BUSERR_RESPONSE (20_memory.md R44–R46; 60_exceptions.md R144). That the refusal is
kept in a record is the model's (log 3). -/
def Obligations.MalformedAccessesAreRefused : Prop :=
  (∀ (off : Nat) (v : Word) (s : State), off < 0x100 → off % 4 = 0 → s.resetLine = false →
    hostAccess (.read 32 off) s = .next { s with seen := .value off (memRead off s) :: s.seen } ∧
    hostAccess (.write 32 off v) s = .next (memWrite off v s)) ∧
  ∀ (a : Access) (s : State), a.offset < 0x100 → (a.width ≠ 32 ∨ a.offset % 4 ≠ 0) →
    hostAccess a s = .next { s with seen := .refused a :: s.seen } ∧
    (Response.refused a).view = .busError (Config.busErrResponse a.isWrite a.width a.offset)

/-- The window lies at BASE, which is aligned to 256 bytes; a bus address falls in it when `BASE ≤ a < BASE + 0x100`, and its offset is
`a − BASE` (20_memory.md R43). Outside it the model stops: its own choice (log 4). -/
def Obligations.WindowLiesAtBase : Prop :=
  Config.base % 256 = 0 ∧
  (∀ a off : Nat, windowOffset a = some off ↔ Config.base ≤ a ∧ a < Config.base + 0x100 ∧ off = a - Config.base) ∧
  (∀ (w off : Nat) (s : State), off < 0x100 → busAccess (.read w (Config.base + off)) s = hostAccess (.read w off) s) ∧
  (∀ (w off : Nat) (v : Word) (s : State), off < 0x100 →
    busAccess (.write w (Config.base + off) v) s = hostAccess (.write w off v) s) ∧
  ∀ (a : Access) (s : State), a.offset < Config.base ∨ Config.base + 0x100 ≤ a.offset →
    busAccess a s = .fault (.outsideWindow a.offset)

/-- Hidden state: no read shows KEYBUF, RK or PEND; and while KEYED = 0 no command's result depends on RK (10_state.md R40). -/
def Obligations.HiddenStateIsNotRead : Prop :=
  (∀ (off : Nat) (s : State) (kb : Key) (r : Vector Block 10) (p : Option Word),
    memRead off { s with keybuf := kb, rk := r, pend := p } = memRead off s) ∧
  ∀ (i : Instr) (s : State) (r : Vector Block 10), s.keyed = false →
    ∃ t u, exec i s = .next t ∧ exec i { s with rk := r } = .next u ∧ u = { t with rk := u.rk } ∧
      (t.keyed = true → u = t) ∧ (t.keyed = false → u.rk = r)

/-! ## Reset -/

/-- Reset sets every element to its value, from any state; then STATUS reads 0, INFO 0x010A2010 and every data window 0
(70_reset_and_hazards.md R151). -/
def Obligations.ResetSetsEveryElement : Prop :=
  ∀ s : State, ∃ t, handleEvent .resetAssert s = .next t ∧
    (∀ i : Fin 32, t.keybuf[i] = 0) ∧ (∀ i : Fin 16, t.din[i] = 0 ∧ t.dout[i] = 0 ∧ t.fr[i] = 0) ∧
    (∀ (j : Fin 10) (i : Fin 16), t.rk[j][i] = 0) ∧
    t.keyed = false ∧ t.mode = false ∧ t.part = false ∧ t.busy = false ∧ t.ovr = false ∧ t.err = 0 ∧ t.pend = none ∧
    memRead 0x004 t = 0 ∧ memRead 0x008 t = 0x010A2010 ∧ (∀ k : Fin 20, memRead (0x020 + 4 * k.val) t = 0)

/-- Reset at any time abandons a pending command: the core is the one right after reset, whatever was pending, and every access in the
window until reset is released is refused (70_reset_and_hazards.md R152; the reset level and the record are the model's, log 3, log 5). -/
def Obligations.ResetAbandonsThePendingCommand : Prop :=
  ∀ (s : State) (es : List Event), s.events = .resetAssert :: es →
    ∃ t, step s = .next t ∧ coreOf t = State.reset ∧ t.events = es ∧
      ∀ a : Access, a.offset < 0x100 → hostAccess a t = .next { t with seen := .refused a :: t.seen }

/-! ## The cipher -/

/-- PI and PI_INV are inverse permutations of the bytes, and PI has no fixed point (40_primitives.md R81, R83). -/
def Obligations.SubstitutionTablesAreInverse : Prop :=
  ∀ x : Byte, piInv (pi x) = x ∧ pi (piInv x) = x ∧ pi x ≠ x

/-- S and S⁻¹, and L and L⁻¹, undo each other on every block (40_primitives.md R93, R94). -/
def Obligations.LayersInvert : Prop :=
  ∀ b : Block, subInv (sub b) = b ∧ sub (subInv b) = b ∧ linInv (lin b) = b ∧ lin (linInv b) = b

/-- L and L⁻¹ are linear over GF(2^8); S is not: S(0^16) is fc…fc (40_primitives.md R95). -/
def Obligations.LinearLayerIsLinear : Prop :=
  (∀ a b : Block, lin (xorBlock a b) = xorBlock (lin a) (lin b) ∧
    linInv (xorBlock a b) = xorBlock (linInv a) (linInv b)) ∧
  lin zeroBlock = zeroBlock ∧ linInv zeroBlock = zeroBlock ∧
  (∀ (c : Byte) (b : Block), lin (scaleBlock c b) = scaleBlock c (lin b) ∧
    linInv (scaleBlock c b) = scaleBlock c (linInv b)) ∧
  sub zeroBlock = Vector.replicate 16 0xfc

/-- The shift-register form of L and L⁻¹ and the matrix form with the printed M and Minv are the same functions
(40_primitives.md R98). -/
def Obligations.LinearLayerIsItsMatrix : Prop :=
  ∀ b : Block, lin b = matApply matRows b ∧ linInv b = matApply matInvRows b

/-- gmul is commutative, associative and distributes over ⊕, with identity 1 and absorbing element 0 (40_primitives.md R79). -/
def Obligations.FieldMultiplicationLaws : Prop :=
  ∀ a b c : Byte, gmul a b = gmul b a ∧ gmul (gmul a b) c = gmul a (gmul b c) ∧ gmul 1 a = a ∧ gmul 0 a = 0 ∧
    gmul a (b ^^^ c) = gmul a b ^^^ gmul a c

/-- gmul is multiplication of polynomials over GF(2) modulo x^8 + x^7 + x^6 + x + 1, a byte's bit i being the coefficient of x^i
(40_primitives.md R77, R78, R79). -/
def Obligations.GmulIsPolynomialProduct : Prop :=
  ∀ a b : Byte,
    (∑ i ∈ Finset.range 8, if (gmul a b).getLsbD i then (Polynomial.X : Polynomial (ZMod 2)) ^ i else 0) =
      ((∑ i ∈ Finset.range 8, if a.getLsbD i then (Polynomial.X : Polynomial (ZMod 2)) ^ i else 0) *
        (∑ i ∈ Finset.range 8, if b.getLsbD i then (Polynomial.X : Polynomial (ZMod 2)) ^ i else 0)) %ₘ
        (Polynomial.X ^ 8 + Polynomial.X ^ 7 + Polynomial.X ^ 6 + Polynomial.X + 1)

/-- Decryption undoes encryption and encryption undoes decryption, for every round-key file and block; at the level of commands,
ENC_BLOCK, copying DOUT into DIN and DEC_BLOCK give back DIN (42_block_transform.md R113, R114). -/
def Obligations.BlockTransformRoundTrips : Prop :=
  (∀ (rk : Vector Block 10) (b : Block), decrypt rk (encrypt rk b) = b ∧ encrypt rk (decrypt rk b) = b) ∧
  ∀ s : State, s.keyed = true → ∃ t u, exec (.encBlock 16) s = .next t ∧
    exec (.decBlock 16) { t with din := t.dout } = .next u ∧ u.dout = s.din

/-- A Feistel iteration is `(LSX[C](a1) ⊕ a0, a1)` and is invertible whatever its constant (41_key_schedule.md R101). -/
def Obligations.FeistelIterationIsInvertible : Prop :=
  ∀ (c a1 a0 : Block), feistel c (a1, a0) = (xorBlock (lin (sub (xorBlock c a1))) a0, a1) ∧
    (∀ b1 b0 : Block, feistel c (a1, a0) = (b1, b0) → (a1, a0) = (b0, xorBlock b1 (lsx c b0))) ∧
    ∃ p, feistel c p = (a1, a0)

/-- `C[i] ⊕ C[j] = L(Vec(i ⊕ j))` (41_key_schedule.md R100). -/
def Obligations.RoundConstantsAddLinearly : Prop :=
  ∀ i j : Nat, xorBlock (roundConst i) (roundConst j) = lin (vec (i ^^^ j))

/-- S, S⁻¹ and X are 16 independent lanes; in L every output byte depends on every input byte: changing any one input byte changes
all 16 output bytes (40_primitives.md R97). -/
def Obligations.LanesAndDiffusion : Prop :=
  (∀ (a b k : Block) (i : Fin 16), a[i] = b[i] →
    (sub a)[i] = (sub b)[i] ∧ (subInv a)[i] = (subInv b)[i] ∧ (xorBlock k a)[i] = (xorBlock k b)[i]) ∧
  ∀ (b : Block) (i j : Fin 16) (c : Byte), c ≠ 0 →
    (lin (b.set j (b[j] ^^^ c)))[i] ≠ (lin b)[i] ∧ (linInv (b.set j (b[j] ^^^ c)))[i] ≠ (linInv b)[i]

/-- The known answer: the source's key and block give the standard's ciphertext (42_block_transform.md R116). -/
def Obligations.KnownAnswer : Prop :=
  encrypt (schedule #v[0x88, 0x99, 0xaa, 0xbb, 0xcc, 0xdd, 0xee, 0xff, 0x00, 0x11, 0x22, 0x33, 0x44, 0x55, 0x66, 0x77,
      0xfe, 0xdc, 0xba, 0x98, 0x76, 0x54, 0x32, 0x10, 0x01, 0x23, 0x45, 0x67, 0x89, 0xab, 0xcd, 0xef])
    #v[0x11, 0x22, 0x33, 0x44, 0x55, 0x66, 0x77, 0x00, 0xff, 0xee, 0xdd, 0xcc, 0xbb, 0xaa, 0x99, 0x88] =
    #v[0x7f, 0x67, 0x9d, 0x90, 0xbe, 0xbc, 0x24, 0x30, 0x5a, 0x46, 0x8d, 0x42, 0xb9, 0xd4, 0xed, 0xcd]

/-! ## The CFB mode -/

/-- After a partial chunk FR has not moved, so the next chunk, in either direction and of any length, uses the same keystream from its
first byte (43_cfb_mode.md R123, R126). -/
def Obligations.PartialChunkReusesKeystream : Prop :=
  ∀ op₁ ∈ [Instr.cfbEnc, Instr.cfbDec], ∀ op₂ ∈ [Instr.cfbEnc, Instr.cfbDec],
    ∀ (s : State) (n m : Nat) (x : Block), s.keyed = true → s.mode = true → 1 ≤ n → n ≤ 15 → m ≤ 16 →
      ∃ t u, exec (op₁ n) s = .next t ∧ exec (op₂ m) { t with din := x } = .next u ∧ t.fr = s.fr ∧ t.part = true ∧
        ∀ i : Fin 16, i.val < m → u.dout[i] = x[i] ^^^ (encrypt s.rk s.fr)[i]

/-- DOUT bytes n..15 of a chunk are 0, and DOUT is a function of DIN[0..n-1], FR and RK alone: two states that agree on these give the
same DOUT (43_cfb_mode.md R125). -/
def Obligations.ChunkOutputDependsOnItsBytesOnly : Prop :=
  ∀ op ∈ [Instr.cfbEnc, Instr.cfbDec], ∀ (s s' : State) (n : Nat), n ≤ 16 →
    s.keyed = true → s.mode = true → s'.keyed = true → s'.mode = true → s.rk = s'.rk → s.fr = s'.fr →
    (∀ i : Fin 16, i.val < n → s.din[i] = s'.din[i]) →
    ∃ t t', exec (op n) s = .next t ∧ exec (op n) s' = .next t' ∧ t.dout = t'.dout ∧
      ∀ i : Fin 16, n ≤ i.val → t.dout[i] = 0

/-- The state machine of the mode instance over every command (43_cfb_mode.md R131; that Initialized and Advanced are one state here is
the model's choice, log 15): a failed command changes nothing, KEY_INIT ends the instance, CFB_INIT opens one, a chunk of 1 to 15 bytes
moves it to Ended, which only KEY_INIT and CFB_INIT leave. -/
def Obligations.ModeInstanceStateMachine : Prop :=
  ∀ (i : Instr) (s t : State), exec i s = .next t →
    modeState t =
      if t.err ≠ 0 then modeState s
      else
        match i with
        | .keyInit _ => .none
        | .encBlock _ => modeState s
        | .decBlock _ => modeState s
        | .cfbInit _ => .running
        | .cfbEnc n => if 1 ≤ n ∧ n ≤ 15 then .ended else modeState s
        | .cfbDec n => if 1 ≤ n ∧ n ≤ 15 then .ended else modeState s

/-- ENC_BLOCK or DEC_BLOCK between the chunks of a stream does not change the stream: the next chunk ends in the very same state
(42_block_transform.md R111, R115). -/
def Obligations.BlockCommandLeavesStreamAlone : Prop :=
  ∀ op ∈ [Instr.encBlock, Instr.decBlock], ∀ chunk ∈ [Instr.cfbEnc, Instr.cfbDec],
    ∀ (s : State) (n : Nat) (d : Block), s.keyed = true → s.mode = true → n ≤ 16 →
      ∃ t, exec (op 16) s = .next t ∧ exec (chunk n) { t with din := d } = exec (chunk n) { s with din := d }

/-- Re-keying loses the stream, and saving FR and the key restores it: KEY_INIT with the old key and CFB_INIT with the saved FR give back
RK, FR, MODE and PART, when the stream had not ended (70_reset_and_hazards.md R161; 41_key_schedule.md R104). -/
def Obligations.SavedFeedbackResumesStream : Prop :=
  ∀ (s : State) (other : Key), Inv s → s.keyed = true → s.mode = true → s.part = false →
    ∃ t u v, exec (.keyInit 32) { s with keybuf := other } = .next t ∧ t.mode = false ∧ t.fr = zeroBlock ∧
      exec (.keyInit 32) { t with keybuf := boundKey s.rk } = .next u ∧
      exec (.cfbInit 16) { u with din := s.fr } = .next v ∧
      v.rk = s.rk ∧ v.fr = s.fr ∧ v.keyed = true ∧ v.mode = true ∧ v.part = false

/-- The source's calls complete and keep the length: on an idle core with a mode instance `Encrypt` and `Decrypt` of any bytes answer as
many bytes; of no bytes they issue no command; without a mode instance they fail with no output (43_cfb_mode.md R128, R129). -/
def Obligations.StreamCallsKeepLength : Prop :=
  ∀ op ∈ [Instr.cfbEnc, Instr.cfbDec],
    (∀ s : State, streamChunks op (chunks []) s = (some [], s)) ∧
    (∀ (s : State) (p : List Byte), s.busy = false → s.resetLine = false → s.keyed = true → s.mode = true →
      ∃ out t, streamChunks op (chunks p) s = (some out, t) ∧ out.length = p.length ∧ t.busy = false ∧
        t.keyed = true ∧ t.mode = true ∧ t.rk = s.rk) ∧
    ∀ (s : State) (p : List Byte), s.busy = false → s.resetLine = false → s.keyed = true → s.mode = false → p ≠ [] →
      ∃ t, streamChunks op (chunks p) s = (none, t) ∧ t.err = 6 ∧ t.dout = s.dout ∧ t.fr = s.fr

/-- Round trip: with one key and IV, CFB_INIT and Encrypt of any plaintext, then CFB_INIT and Decrypt of the result, give the plaintext
back (43_cfb_mode.md R130 (a)). -/
def Obligations.StreamRoundTrip : Prop :=
  ∀ (s : State) (iv : Block) (p : List Byte), s.busy = false → s.resetLine = false → s.keyed = true →
    ∃ s₁ c s₂, exec (.cfbInit 16) { s with din := iv } = .next s₁ ∧ (callEncrypt p s₁).1 = some c ∧
      exec (.cfbInit 16) { (callEncrypt p s₁).2 with din := iv } = .next s₂ ∧ (callDecrypt c s₂).1 = some p

/-- Streaming consistency: split at a multiple of 16 bytes, two calls on one mode instance give what one call gives, and end in the same
state, in both directions (43_cfb_mode.md R130 (b)). -/
def Obligations.StreamSplitsAtBlocks : Prop :=
  ∀ op ∈ [Instr.cfbEnc, Instr.cfbDec], ∀ (s : State) (p₁ p₂ : List Byte),
    s.busy = false → s.resetLine = false → s.keyed = true → s.mode = true → p₁.length % 16 = 0 →
    ∃ c₁ c₂ t u, streamChunks op (chunks p₁) s = (some c₁, t) ∧ streamChunks op (chunks p₂) t = (some c₂, u) ∧
      streamChunks op (chunks (p₁ ++ p₂)) s = (some (c₁ ++ c₂), u)

/-- Self-synchronisation: if one full ciphertext chunk x is replaced by x', only the plaintext of that chunk and of the next can differ,
whatever follows: nothing, a partial chunk, or any number of chunks (43_cfb_mode.md R130 (c)). -/
def Obligations.DecryptionSelfSynchronises : Prop :=
  ∀ (s : State) (pre x x' post : List Byte), s.busy = false → s.resetLine = false → s.keyed = true → s.mode = true →
    pre.length % 16 = 0 → x.length = 16 → x'.length = 16 →
    ∃ p p', (callDecrypt (pre ++ x ++ post) s).1 = some p ∧ (callDecrypt (pre ++ x' ++ post) s).1 = some p' ∧
      ∀ i, i < pre.length ∨ pre.length + 32 ≤ i → p[i]? = p'[i]?

/-! ## Interleaving and runs -/

/-- When the completion comes does not matter: any host accesses in the window between accept and completion leave the completed core
the same, OVR apart (20_memory.md R49, R55; 70_reset_and_hazards.md R164; the event list is the model's, log 1). -/
def Obligations.LatencyDoesNotChangeResults : Prop :=
  ∀ (s : State) (w : Word) (as : List Access), s.busy = true → s.resetLine = false → s.pend = some w →
    (∀ a ∈ as, a.offset < 0x100) →
    ∃ t u, run (as.length + 1) (setEvents (as.map Event.access ++ [.core]) s) = .next t ∧
      run 1 (setEvents [.core] s) = .next u ∧ coreOf t = { coreOf u with ovr := t.ovr }

/-- Both outcomes of V34 are runs of the model, one for each latency: a second CMD write one cycle after the first is dropped with OVR = 1
when the block latency is over 1, and is accepted when it is 1 (95_test_vectors.md V34; 10_state.md R37; 00_scope.md R9; that latencies are turned into an order is the model's, log 2). -/
def Obligations.BothOutcomesOfUnpolledWrite : Prop :=
  ∀ (l : Latencies) (s : State), l.legal = true → s.keyed = true → s.busy = false → s.resetLine = false → s.ovr = false →
    ∃ t, runEvents (timedEvents l none [(0, .write 32 0x000 0x00001002), (1, .write 32 0x000 0x00001003)]) s = .next t ∧
      t.busy = false ∧ t.err = 0 ∧
      (1 < l.block → t.ovr = true ∧ t.dout = encrypt s.rk s.din) ∧
      (l.block = 1 → t.ovr = false ∧ t.dout = decrypt s.rk s.din)

/-- Every run ends: from any state within the invariants whose accesses lie in the window, after two steps for each event and one more
no event is left and nothing is pending, and so it stays (70_reset_and_hazards.md R166, R168; the event list, and that a core
without events completes, are the model's, log 1). -/
def Obligations.EveryRunEnds : Prop :=
  ∀ s : State, Inv s → Settled s → (∀ e ∈ s.events, e.inWindow = true) →
    ∃ t, RunEnded t ∧ ∀ k, run (2 * s.events.length + 1 + k) s = .next t

/-- The pseudo-instructions on an idle core: `kz.loadkey K` leaves KEYBUF = K; `kz.loadin B, m` writes bytes 0..m-1 of B, zeros up to
the end of the last word, and no byte past it; `kz.clrovr` clears OVR; `kz.readout` and `kz.readfr` read the four words in order
(30_encoding.md R74; the record of what was read is the model's, log 3). -/
def Obligations.PseudoInstructionsExpand : Prop :=
  ∀ s : State, s.busy = false → s.resetLine = false →
    (∀ k : Key, runEvents (kzLoadKey k) s = .next { s with keybuf := k, events := [] }) ∧
    (∀ (b : Block) (m : Nat), m ≤ 16 → ∃ es d, kzLoadIn b m = some es ∧ es.length = (m + 3) / 4 ∧
      runEvents es s = .next { s with din := d, events := [] } ∧
      ∀ i : Fin 16, d[i] = if i.val < m then b[i] else if i.val / 4 < (m + 3) / 4 then 0 else s.din[i]) ∧
    (∀ (b : Block) (m : Nat), 16 < m → kzLoadIn b m = none) ∧
    runEvents kzClrOvr s = .next { s with ovr := false, events := [] } ∧
    runEvents kzReadOut s = .next { s with events := [], seen := .value 0x05C (blockWord s.dout 3) :: .value 0x058 (blockWord s.dout 2) :: .value 0x054 (blockWord s.dout 1) :: .value 0x050 (blockWord s.dout 0) :: s.seen } ∧
    runEvents kzReadFr s = .next { s with events := [], seen := .value 0x06C (blockWord s.fr 3) :: .value 0x068 (blockWord s.fr 2) :: .value 0x064 (blockWord s.fr 1) :: .value 0x060 (blockWord s.fr 0) :: s.seen }
end

