-- ==== Sys2Proof/Laws/State.lean ====
section
/-! SUPPORT. One lemma for each field of State after each update, by `rfl`, so that no proof unfolds a record update. -/

namespace Sys2Proof.Machine

variable (s : State)

/-! ### finish -/
@[simp] theorem finish_keybuf (c : BitVec 4) : (finish c s).keybuf = s.keybuf := rfl
@[simp] theorem finish_din (c : BitVec 4) : (finish c s).din = s.din := rfl
@[simp] theorem finish_dout (c : BitVec 4) : (finish c s).dout = s.dout := rfl
@[simp] theorem finish_fr (c : BitVec 4) : (finish c s).fr = s.fr := rfl
@[simp] theorem finish_rk (c : BitVec 4) : (finish c s).rk = s.rk := rfl
@[simp] theorem finish_keyed (c : BitVec 4) : (finish c s).keyed = s.keyed := rfl
@[simp] theorem finish_mode (c : BitVec 4) : (finish c s).mode = s.mode := rfl
@[simp] theorem finish_part (c : BitVec 4) : (finish c s).part = s.part := rfl
@[simp] theorem finish_busy (c : BitVec 4) : (finish c s).busy = false := rfl
@[simp] theorem finish_ovr (c : BitVec 4) : (finish c s).ovr = s.ovr := rfl
@[simp] theorem finish_err (c : BitVec 4) : (finish c s).err = c := rfl
@[simp] theorem finish_pend (c : BitVec 4) : (finish c s).pend = none := rfl
@[simp] theorem finish_resetLine (c : BitVec 4) : (finish c s).resetLine = s.resetLine := rfl
@[simp] theorem finish_events (c : BitVec 4) : (finish c s).events = s.events := rfl
@[simp] theorem finish_seen (c : BitVec 4) : (finish c s).seen = s.seen := rfl

/-! ### setDout -/
@[simp] theorem setDout_keybuf (b : Block) : (setDout b s).keybuf = s.keybuf := rfl
@[simp] theorem setDout_din (b : Block) : (setDout b s).din = s.din := rfl
@[simp] theorem setDout_dout (b : Block) : (setDout b s).dout = b := rfl
@[simp] theorem setDout_fr (b : Block) : (setDout b s).fr = s.fr := rfl
@[simp] theorem setDout_rk (b : Block) : (setDout b s).rk = s.rk := rfl
@[simp] theorem setDout_keyed (b : Block) : (setDout b s).keyed = s.keyed := rfl
@[simp] theorem setDout_mode (b : Block) : (setDout b s).mode = s.mode := rfl
@[simp] theorem setDout_part (b : Block) : (setDout b s).part = s.part := rfl
@[simp] theorem setDout_busy (b : Block) : (setDout b s).busy = s.busy := rfl
@[simp] theorem setDout_ovr (b : Block) : (setDout b s).ovr = s.ovr := rfl
@[simp] theorem setDout_err (b : Block) : (setDout b s).err = s.err := rfl
@[simp] theorem setDout_pend (b : Block) : (setDout b s).pend = s.pend := rfl
@[simp] theorem setDout_resetLine (b : Block) : (setDout b s).resetLine = s.resetLine := rfl
@[simp] theorem setDout_events (b : Block) : (setDout b s).events = s.events := rfl
@[simp] theorem setDout_seen (b : Block) : (setDout b s).seen = s.seen := rfl

/-! ### setFr -/
@[simp] theorem setFr_keybuf (b : Block) : (setFr b s).keybuf = s.keybuf := rfl
@[simp] theorem setFr_din (b : Block) : (setFr b s).din = s.din := rfl
@[simp] theorem setFr_dout (b : Block) : (setFr b s).dout = s.dout := rfl
@[simp] theorem setFr_fr (b : Block) : (setFr b s).fr = b := rfl
@[simp] theorem setFr_rk (b : Block) : (setFr b s).rk = s.rk := rfl
@[simp] theorem setFr_keyed (b : Block) : (setFr b s).keyed = s.keyed := rfl
@[simp] theorem setFr_mode (b : Block) : (setFr b s).mode = s.mode := rfl
@[simp] theorem setFr_part (b : Block) : (setFr b s).part = s.part := rfl
@[simp] theorem setFr_busy (b : Block) : (setFr b s).busy = s.busy := rfl
@[simp] theorem setFr_ovr (b : Block) : (setFr b s).ovr = s.ovr := rfl
@[simp] theorem setFr_err (b : Block) : (setFr b s).err = s.err := rfl
@[simp] theorem setFr_pend (b : Block) : (setFr b s).pend = s.pend := rfl
@[simp] theorem setFr_resetLine (b : Block) : (setFr b s).resetLine = s.resetLine := rfl
@[simp] theorem setFr_events (b : Block) : (setFr b s).events = s.events := rfl
@[simp] theorem setFr_seen (b : Block) : (setFr b s).seen = s.seen := rfl

/-! ### setPart -/
@[simp] theorem setPart_keybuf : (setPart s).keybuf = s.keybuf := rfl
@[simp] theorem setPart_din : (setPart s).din = s.din := rfl
@[simp] theorem setPart_dout : (setPart s).dout = s.dout := rfl
@[simp] theorem setPart_fr : (setPart s).fr = s.fr := rfl
@[simp] theorem setPart_rk : (setPart s).rk = s.rk := rfl
@[simp] theorem setPart_keyed : (setPart s).keyed = s.keyed := rfl
@[simp] theorem setPart_mode : (setPart s).mode = s.mode := rfl
@[simp] theorem setPart_part : (setPart s).part = true := rfl
@[simp] theorem setPart_busy : (setPart s).busy = s.busy := rfl
@[simp] theorem setPart_ovr : (setPart s).ovr = s.ovr := rfl
@[simp] theorem setPart_err : (setPart s).err = s.err := rfl
@[simp] theorem setPart_pend : (setPart s).pend = s.pend := rfl
@[simp] theorem setPart_resetLine : (setPart s).resetLine = s.resetLine := rfl
@[simp] theorem setPart_events : (setPart s).events = s.events := rfl
@[simp] theorem setPart_seen : (setPart s).seen = s.seen := rfl

/-! ### bindKey -/
@[simp] theorem bindKey_keybuf (r : Vector Block 10) : (bindKey r s).keybuf = s.keybuf := rfl
@[simp] theorem bindKey_din (r : Vector Block 10) : (bindKey r s).din = s.din := rfl
@[simp] theorem bindKey_dout (r : Vector Block 10) : (bindKey r s).dout = s.dout := rfl
@[simp] theorem bindKey_fr (r : Vector Block 10) : (bindKey r s).fr = zeroBlock := rfl
@[simp] theorem bindKey_rk (r : Vector Block 10) : (bindKey r s).rk = r := rfl
@[simp] theorem bindKey_keyed (r : Vector Block 10) : (bindKey r s).keyed = true := rfl
@[simp] theorem bindKey_mode (r : Vector Block 10) : (bindKey r s).mode = false := rfl
@[simp] theorem bindKey_part (r : Vector Block 10) : (bindKey r s).part = false := rfl
@[simp] theorem bindKey_busy (r : Vector Block 10) : (bindKey r s).busy = s.busy := rfl
@[simp] theorem bindKey_ovr (r : Vector Block 10) : (bindKey r s).ovr = s.ovr := rfl
@[simp] theorem bindKey_err (r : Vector Block 10) : (bindKey r s).err = s.err := rfl
@[simp] theorem bindKey_pend (r : Vector Block 10) : (bindKey r s).pend = s.pend := rfl
@[simp] theorem bindKey_resetLine (r : Vector Block 10) : (bindKey r s).resetLine = s.resetLine := rfl
@[simp] theorem bindKey_events (r : Vector Block 10) : (bindKey r s).events = s.events := rfl
@[simp] theorem bindKey_seen (r : Vector Block 10) : (bindKey r s).seen = s.seen := rfl

/-! ### startMode -/
@[simp] theorem startMode_keybuf (iv : Block) : (startMode iv s).keybuf = s.keybuf := rfl
@[simp] theorem startMode_din (iv : Block) : (startMode iv s).din = s.din := rfl
@[simp] theorem startMode_dout (iv : Block) : (startMode iv s).dout = s.dout := rfl
@[simp] theorem startMode_fr (iv : Block) : (startMode iv s).fr = iv := rfl
@[simp] theorem startMode_rk (iv : Block) : (startMode iv s).rk = s.rk := rfl
@[simp] theorem startMode_keyed (iv : Block) : (startMode iv s).keyed = s.keyed := rfl
@[simp] theorem startMode_mode (iv : Block) : (startMode iv s).mode = true := rfl
@[simp] theorem startMode_part (iv : Block) : (startMode iv s).part = false := rfl
@[simp] theorem startMode_busy (iv : Block) : (startMode iv s).busy = s.busy := rfl
@[simp] theorem startMode_ovr (iv : Block) : (startMode iv s).ovr = s.ovr := rfl
@[simp] theorem startMode_err (iv : Block) : (startMode iv s).err = s.err := rfl
@[simp] theorem startMode_pend (iv : Block) : (startMode iv s).pend = s.pend := rfl
@[simp] theorem startMode_resetLine (iv : Block) : (startMode iv s).resetLine = s.resetLine := rfl
@[simp] theorem startMode_events (iv : Block) : (startMode iv s).events = s.events := rfl
@[simp] theorem startMode_seen (iv : Block) : (startMode iv s).seen = s.seen := rfl

/-! ### dropWrite -/
@[simp] theorem dropWrite_keybuf : (dropWrite s).keybuf = s.keybuf := rfl
@[simp] theorem dropWrite_din : (dropWrite s).din = s.din := rfl
@[simp] theorem dropWrite_dout : (dropWrite s).dout = s.dout := rfl
@[simp] theorem dropWrite_fr : (dropWrite s).fr = s.fr := rfl
@[simp] theorem dropWrite_rk : (dropWrite s).rk = s.rk := rfl
@[simp] theorem dropWrite_keyed : (dropWrite s).keyed = s.keyed := rfl
@[simp] theorem dropWrite_mode : (dropWrite s).mode = s.mode := rfl
@[simp] theorem dropWrite_part : (dropWrite s).part = s.part := rfl
@[simp] theorem dropWrite_busy : (dropWrite s).busy = s.busy := rfl
@[simp] theorem dropWrite_ovr : (dropWrite s).ovr = true := rfl
@[simp] theorem dropWrite_err : (dropWrite s).err = s.err := rfl
@[simp] theorem dropWrite_pend : (dropWrite s).pend = s.pend := rfl
@[simp] theorem dropWrite_resetLine : (dropWrite s).resetLine = s.resetLine := rfl
@[simp] theorem dropWrite_events : (dropWrite s).events = s.events := rfl
@[simp] theorem dropWrite_seen : (dropWrite s).seen = s.seen := rfl

/-! ### takeCommand -/
@[simp] theorem takeCommand_keybuf (w : Word) : (takeCommand w s).keybuf = s.keybuf := rfl
@[simp] theorem takeCommand_din (w : Word) : (takeCommand w s).din = s.din := rfl
@[simp] theorem takeCommand_dout (w : Word) : (takeCommand w s).dout = s.dout := rfl
@[simp] theorem takeCommand_fr (w : Word) : (takeCommand w s).fr = s.fr := rfl
@[simp] theorem takeCommand_rk (w : Word) : (takeCommand w s).rk = s.rk := rfl
@[simp] theorem takeCommand_keyed (w : Word) : (takeCommand w s).keyed = s.keyed := rfl
@[simp] theorem takeCommand_mode (w : Word) : (takeCommand w s).mode = s.mode := rfl
@[simp] theorem takeCommand_part (w : Word) : (takeCommand w s).part = s.part := rfl
@[simp] theorem takeCommand_busy (w : Word) : (takeCommand w s).busy = true := rfl
@[simp] theorem takeCommand_ovr (w : Word) : (takeCommand w s).ovr = s.ovr := rfl
@[simp] theorem takeCommand_err (w : Word) : (takeCommand w s).err = s.err := rfl
@[simp] theorem takeCommand_pend (w : Word) : (takeCommand w s).pend = some w := rfl
@[simp] theorem takeCommand_resetLine (w : Word) : (takeCommand w s).resetLine = s.resetLine := rfl
@[simp] theorem takeCommand_events (w : Word) : (takeCommand w s).events = s.events := rfl
@[simp] theorem takeCommand_seen (w : Word) : (takeCommand w s).seen = s.seen := rfl

/-! ### writeStatus -/
@[simp] theorem writeStatus_keybuf (w : Word) : (writeStatus w s).keybuf = s.keybuf := rfl
@[simp] theorem writeStatus_din (w : Word) : (writeStatus w s).din = s.din := rfl
@[simp] theorem writeStatus_dout (w : Word) : (writeStatus w s).dout = s.dout := rfl
@[simp] theorem writeStatus_fr (w : Word) : (writeStatus w s).fr = s.fr := rfl
@[simp] theorem writeStatus_rk (w : Word) : (writeStatus w s).rk = s.rk := rfl
@[simp] theorem writeStatus_keyed (w : Word) : (writeStatus w s).keyed = s.keyed := rfl
@[simp] theorem writeStatus_mode (w : Word) : (writeStatus w s).mode = s.mode := rfl
@[simp] theorem writeStatus_part (w : Word) : (writeStatus w s).part = s.part := rfl
@[simp] theorem writeStatus_busy (w : Word) : (writeStatus w s).busy = s.busy := rfl
@[simp] theorem writeStatus_ovr (w : Word) : (writeStatus w s).ovr = (s.ovr && !w.getLsbD 4) := rfl
@[simp] theorem writeStatus_err (w : Word) : (writeStatus w s).err = s.err := rfl
@[simp] theorem writeStatus_pend (w : Word) : (writeStatus w s).pend = s.pend := rfl
@[simp] theorem writeStatus_resetLine (w : Word) : (writeStatus w s).resetLine = s.resetLine := rfl
@[simp] theorem writeStatus_events (w : Word) : (writeStatus w s).events = s.events := rfl
@[simp] theorem writeStatus_seen (w : Word) : (writeStatus w s).seen = s.seen := rfl

/-! ### record -/
@[simp] theorem record_keybuf (r : Response) : (record r s).keybuf = s.keybuf := rfl
@[simp] theorem record_din (r : Response) : (record r s).din = s.din := rfl
@[simp] theorem record_dout (r : Response) : (record r s).dout = s.dout := rfl
@[simp] theorem record_fr (r : Response) : (record r s).fr = s.fr := rfl
@[simp] theorem record_rk (r : Response) : (record r s).rk = s.rk := rfl
@[simp] theorem record_keyed (r : Response) : (record r s).keyed = s.keyed := rfl
@[simp] theorem record_mode (r : Response) : (record r s).mode = s.mode := rfl
@[simp] theorem record_part (r : Response) : (record r s).part = s.part := rfl
@[simp] theorem record_busy (r : Response) : (record r s).busy = s.busy := rfl
@[simp] theorem record_ovr (r : Response) : (record r s).ovr = s.ovr := rfl
@[simp] theorem record_err (r : Response) : (record r s).err = s.err := rfl
@[simp] theorem record_pend (r : Response) : (record r s).pend = s.pend := rfl
@[simp] theorem record_resetLine (r : Response) : (record r s).resetLine = s.resetLine := rfl
@[simp] theorem record_events (r : Response) : (record r s).events = s.events := rfl
@[simp] theorem record_seen (r : Response) : (record r s).seen = r :: s.seen := rfl

/-! ### setEvents -/
@[simp] theorem setEvents_keybuf (es : List Event) : (setEvents es s).keybuf = s.keybuf := rfl
@[simp] theorem setEvents_din (es : List Event) : (setEvents es s).din = s.din := rfl
@[simp] theorem setEvents_dout (es : List Event) : (setEvents es s).dout = s.dout := rfl
@[simp] theorem setEvents_fr (es : List Event) : (setEvents es s).fr = s.fr := rfl
@[simp] theorem setEvents_rk (es : List Event) : (setEvents es s).rk = s.rk := rfl
@[simp] theorem setEvents_keyed (es : List Event) : (setEvents es s).keyed = s.keyed := rfl
@[simp] theorem setEvents_mode (es : List Event) : (setEvents es s).mode = s.mode := rfl
@[simp] theorem setEvents_part (es : List Event) : (setEvents es s).part = s.part := rfl
@[simp] theorem setEvents_busy (es : List Event) : (setEvents es s).busy = s.busy := rfl
@[simp] theorem setEvents_ovr (es : List Event) : (setEvents es s).ovr = s.ovr := rfl
@[simp] theorem setEvents_err (es : List Event) : (setEvents es s).err = s.err := rfl
@[simp] theorem setEvents_pend (es : List Event) : (setEvents es s).pend = s.pend := rfl
@[simp] theorem setEvents_resetLine (es : List Event) : (setEvents es s).resetLine = s.resetLine := rfl
@[simp] theorem setEvents_events (es : List Event) : (setEvents es s).events = es := rfl
@[simp] theorem setEvents_seen (es : List Event) : (setEvents es s).seen = s.seen := rfl

/-! ### releaseReset -/
@[simp] theorem releaseReset_keybuf : (releaseReset s).keybuf = s.keybuf := rfl
@[simp] theorem releaseReset_din : (releaseReset s).din = s.din := rfl
@[simp] theorem releaseReset_dout : (releaseReset s).dout = s.dout := rfl
@[simp] theorem releaseReset_fr : (releaseReset s).fr = s.fr := rfl
@[simp] theorem releaseReset_rk : (releaseReset s).rk = s.rk := rfl
@[simp] theorem releaseReset_keyed : (releaseReset s).keyed = s.keyed := rfl
@[simp] theorem releaseReset_mode : (releaseReset s).mode = s.mode := rfl
@[simp] theorem releaseReset_part : (releaseReset s).part = s.part := rfl
@[simp] theorem releaseReset_busy : (releaseReset s).busy = s.busy := rfl
@[simp] theorem releaseReset_ovr : (releaseReset s).ovr = s.ovr := rfl
@[simp] theorem releaseReset_err : (releaseReset s).err = s.err := rfl
@[simp] theorem releaseReset_pend : (releaseReset s).pend = s.pend := rfl
@[simp] theorem releaseReset_resetLine : (releaseReset s).resetLine = false := rfl
@[simp] theorem releaseReset_events : (releaseReset s).events = s.events := rfl
@[simp] theorem releaseReset_seen : (releaseReset s).seen = s.seen := rfl

/-! ### coreOf -/
@[simp] theorem coreOf_keybuf : (coreOf s).keybuf = s.keybuf := rfl
@[simp] theorem coreOf_din : (coreOf s).din = s.din := rfl
@[simp] theorem coreOf_dout : (coreOf s).dout = s.dout := rfl
@[simp] theorem coreOf_fr : (coreOf s).fr = s.fr := rfl
@[simp] theorem coreOf_rk : (coreOf s).rk = s.rk := rfl
@[simp] theorem coreOf_keyed : (coreOf s).keyed = s.keyed := rfl
@[simp] theorem coreOf_mode : (coreOf s).mode = s.mode := rfl
@[simp] theorem coreOf_part : (coreOf s).part = s.part := rfl
@[simp] theorem coreOf_busy : (coreOf s).busy = s.busy := rfl
@[simp] theorem coreOf_ovr : (coreOf s).ovr = s.ovr := rfl
@[simp] theorem coreOf_err : (coreOf s).err = s.err := rfl
@[simp] theorem coreOf_pend : (coreOf s).pend = s.pend := rfl
@[simp] theorem coreOf_resetLine : (coreOf s).resetLine = false := rfl
@[simp] theorem coreOf_events : (coreOf s).events = [] := rfl
@[simp] theorem coreOf_seen : (coreOf s).seen = [] := rfl

/-! ### assertReset -/
@[simp] theorem assertReset_keybuf : (assertReset s).keybuf = State.reset.keybuf := rfl
@[simp] theorem assertReset_din : (assertReset s).din = State.reset.din := rfl
@[simp] theorem assertReset_dout : (assertReset s).dout = State.reset.dout := rfl
@[simp] theorem assertReset_fr : (assertReset s).fr = State.reset.fr := rfl
@[simp] theorem assertReset_rk : (assertReset s).rk = State.reset.rk := rfl
@[simp] theorem assertReset_keyed : (assertReset s).keyed = State.reset.keyed := rfl
@[simp] theorem assertReset_mode : (assertReset s).mode = State.reset.mode := rfl
@[simp] theorem assertReset_part : (assertReset s).part = State.reset.part := rfl
@[simp] theorem assertReset_busy : (assertReset s).busy = State.reset.busy := rfl
@[simp] theorem assertReset_ovr : (assertReset s).ovr = State.reset.ovr := rfl
@[simp] theorem assertReset_err : (assertReset s).err = State.reset.err := rfl
@[simp] theorem assertReset_pend : (assertReset s).pend = State.reset.pend := rfl
@[simp] theorem assertReset_resetLine : (assertReset s).resetLine = true := rfl
@[simp] theorem assertReset_events : (assertReset s).events = s.events := rfl
@[simp] theorem assertReset_seen : (assertReset s).seen = s.seen := rfl

/-! ### Updates of one field compose -/

@[simp] theorem setEvents_setEvents (es es' : List Event) : setEvents es (setEvents es' s) = setEvents es s := rfl

@[simp] theorem setEvents_self : setEvents s.events s = s := rfl

@[simp] theorem assertReset_assertReset : assertReset (assertReset s) = assertReset s := rfl

@[simp] theorem coreOf_coreOf : coreOf (coreOf s) = coreOf s := rfl

@[simp] theorem coreOf_setEvents (es : List Event) : coreOf (setEvents es s) = coreOf s := rfl

@[simp] theorem coreOf_record (r : Response) : coreOf (record r s) = coreOf s := rfl

end Sys2Proof.Machine
end

