-- ==== Sys2Proof/Laws/Ops.lean ====
section
/-! SUPPORT. One lemma for each shared operation that says once everything it can do; proofs cite these and do not unfold it. -/

namespace Sys2Proof.Machine

/-! ## How a command ends -/

@[simp] theorem raiseError_eq (e : ErrCode) (s : State) : raiseError e s = .next (finish e.code s) := rfl

@[simp] theorem succeed_eq (s : State) : succeed s = .next (finish okCode s) := rfl

/-- Everything a chunk of n bytes can do to FR and PART. -/
theorem advanceMode_cases (n : Nat) (ct : Block) (s : State) :
    (n = 16 ∧ advanceMode n ct s = setFr ct s) ∨ (n ≠ 16 ∧ 1 ≤ n ∧ advanceMode n ct s = setPart s) ∨
    (n = 0 ∧ advanceMode n ct s = s) := by
  by_cases h : n = 16
  · exact .inl ⟨h, by simp [advanceMode, Config.blockBytes, h]⟩
  · by_cases h1 : 1 ≤ n
    · exact .inr (.inl ⟨h, h1, by simp [advanceMode, Config.blockBytes, h, h1]⟩)
    · exact .inr (.inr ⟨by omega, by simp [advanceMode, Config.blockBytes, h, h1]⟩)

/-! ## Byte lanes -/

theorem laneByte_packLanes (b0 b1 b2 b3 : Byte) :
    laneByte (packLanes b0 b1 b2 b3) 0 = b0 ∧ laneByte (packLanes b0 b1 b2 b3) 1 = b1 ∧
    laneByte (packLanes b0 b1 b2 b3) 2 = b2 ∧ laneByte (packLanes b0 b1 b2 b3) 3 = b3 := by
  refine ⟨?_, ?_, ?_, ?_⟩ <;>
  · apply BitVec.eq_of_getLsbD_eq
    intro i hi
    simp only [laneByte, packLanes, BitVec.getLsbD_extractLsb', BitVec.getLsbD_append, hi]
    repeat' split
    all_goals first | omega | (simp; try (congr 1; omega))

theorem packLanes_laneByte (w : Word) :
    packLanes (laneByte w 0) (laneByte w 1) (laneByte w 2) (laneByte w 3) = w := by
  apply BitVec.eq_of_getLsbD_eq
  intro i hi
  simp only [laneByte, packLanes, BitVec.getLsbD_extractLsb', BitVec.getLsbD_append]
  split
  · simp_all
  split
  · simp_all [show 24 - 8 * 2 + (i - 8) = i by omega]
  split
  · simp_all [show 24 - 8 * 1 + (i - 8 - 8) = i by omega]
  · simp_all [show 24 - 8 * 0 + (i - 8 - 8 - 8) = i by omega, show i - 8 - 8 - 8 < 8 by omega]

theorem setBlockWord_getElem (b : Block) (k : Fin 4) (v : Word) (i : Nat) (hi : i < 16) :
    (setBlockWord b k v)[i] = if i / 4 = k.val then laneByte v (i % 4) else b[i] := by
  simp [setBlockWord]

theorem setKeyWord_getElem (b : Key) (k : Fin 8) (v : Word) (i : Nat) (hi : i < 32) :
    (setKeyWord b k v)[i] = if i / 4 = k.val then laneByte v (i % 4) else b[i] := by
  simp [setKeyWord]

theorem chunkOut_getElem (n : Nat) (x ks : Block) (i : Nat) (hi : i < 16) :
    (chunkOut n x ks)[i] = if i < n then x[i] ^^^ ks[i] else 0 := by
  simp [chunkOut]

theorem keyFirst_getElem (k : Key) (i : Nat) (hi : i < 16) : (keyFirst k)[i] = k[i] := by
  simp [keyFirst]

theorem keySecond_getElem (k : Key) (i : Nat) (hi : i < 16) : (keySecond k)[i] = k[16 + i] := by
  simp [keySecond]

/-- The two halves of a key, joined again. -/
theorem joinBlocks_halves (k : Key) : joinBlocks (keyFirst k) (keySecond k) = k := by
  apply Vector.ext
  intro i hi
  by_cases h : i < 16
  · simp [joinBlocks, h, keyFirst_getElem]
  · simp [joinBlocks, h, keySecond_getElem k (i - 16) (by omega), show 16 + (i - 16) = i by omega]

/-! ## The window: which register an offset names -/

@[simp] theorem regOf_cmd : regOf 0x000 = .cmd := rfl

@[simp] theorem regOf_status : regOf 0x004 = .status := rfl

@[simp] theorem regOf_info : regOf 0x008 = .info := rfl

@[simp] theorem regOf_key (k : Fin 8) : regOf (0x020 + 4 * k.val) = .key k := by
  revert k; decide

@[simp] theorem regOf_din (k : Fin 4) : regOf (0x040 + 4 * k.val) = .din k := by
  revert k; decide

@[simp] theorem regOf_dout (k : Fin 4) : regOf (0x050 + 4 * k.val) = .dout k := by
  revert k; decide

@[simp] theorem regOf_fr (k : Fin 4) : regOf (0x060 + 4 * k.val) = .fr k := by
  revert k; decide

/-- The two reserved ranges of the window. -/
theorem regOf_reserved (off : Nat) (h : 0x00C ≤ off ∧ off < 0x020 ∨ 0x070 ≤ off) : regOf off = .reserved := by
  unfold regOf
  rcases h with h | h
  all_goals
    simp only [show off / 4 ≠ 0 by omega, show off / 4 ≠ 1 by omega, show off / 4 ≠ 2 by omega,
      show ¬(8 ≤ off / 4 ∧ off / 4 < 16) by omega, show ¬(16 ≤ off / 4 ∧ off / 4 < 20) by omega,
      show ¬(20 ≤ off / 4 ∧ off / 4 < 24) by omega, show ¬(24 ≤ off / 4 ∧ off / 4 < 28) by omega, if_false, dif_neg,
      not_false_eq_true]

/-! ## Host accesses -/

theorem windowBytes_eq : Config.windowBytes = 0x100 := rfl

@[simp] theorem permitted_read (w off : Nat) (s : State) :
    permitted (.read w off) s = record (.value off (memRead off s)) s := rfl

@[simp] theorem permitted_write (w off : Nat) (v : Word) (s : State) :
    permitted (.write w off v) s = memWrite off v s := rfl

/-- Everything a write to the window can do. -/
theorem memWrite_cases (off : Nat) (v : Word) (s : State) :
    memWrite off v s = s ∨ (regOf off = .status ∧ memWrite off v s = writeStatus v s) ∨
    (s.busy = true ∧ memWrite off v s = dropWrite s) ∨
    (s.busy = false ∧ regOf off = .cmd ∧ memWrite off v s = takeCommand v s) ∨
    (∃ k, s.busy = false ∧ regOf off = .key k ∧
      memWrite off v s = { s with keybuf := setKeyWord s.keybuf k v }) ∨
    (∃ k, s.busy = false ∧ regOf off = .din k ∧
      memWrite off v s = { s with din := setBlockWord s.din k v }) := by
  unfold memWrite
  cases h : regOf off <;> cases hb : s.busy <;> simp [writeReg, accept, writeKey, writeDin, hb]

/-- Everything a host access can do: stop outside the window, be refused, or be carried out. -/
theorem hostAccess_cases (a : Access) (s : State) :
    (0x100 ≤ a.offset ∧ hostAccess a s = .fault (.outsideWindow a.offset)) ∨
    (a.offset < 0x100 ∧ (a.malformed = true ∨ s.resetLine = true) ∧
      hostAccess a s = .next (record (.refused a) s)) ∨
    (a.offset < 0x100 ∧ a.malformed = false ∧ s.resetLine = false ∧ hostAccess a s = .next (permitted a s)) := by
  unfold hostAccess
  rw [windowBytes_eq]
  by_cases h : 0x100 ≤ a.offset
  · exact .inl ⟨h, by rw [if_pos h]⟩
  · cases a.malformed <;> cases s.resetLine <;> simp [h] <;> omega

/-- A host access at a bus address is the access at its window offset, or it stops. -/
theorem busAccess_cases (a : Access) (s : State) :
    (∃ off, windowOffset a.offset = some off ∧ busAccess a s = hostAccess (a.at off) s) ∨
    (windowOffset a.offset = none ∧ busAccess a s = .fault (.outsideWindow a.offset)) := by
  unfold busAccess
  cases windowOffset a.offset <;> simp

/-- `off = a − BASE` inside the window. -/
theorem windowOffset_cases (a : Nat) :
    (Config.base ≤ a ∧ a < Config.base + 0x100 ∧ windowOffset a = some (a - Config.base)) ∨
    (¬(Config.base ≤ a ∧ a < Config.base + 0x100) ∧ windowOffset a = none) := by
  unfold windowOffset
  rw [windowBytes_eq]
  by_cases h : Config.base ≤ a ∧ a < Config.base + 0x100
  · exact .inl ⟨h.1, h.2, if_pos h⟩
  · exact .inr ⟨h, if_neg h⟩

end Sys2Proof.Machine
end

