-- ==== Sys2Proof/Laws/Commands.lean ====
section
/-! SUPPORT. What each command can do, said once: for each, its errors in order and its effect. Every command ends in a next state. -/

namespace Sys2Proof.Machine

/-- The key a schedule was made from is bound in it: `RK[1] || RK[2]` (41_key_schedule.md R102). -/
theorem boundKey_schedule (k : Key) : boundKey (schedule k) = k := by
  simp [boundKey, schedule, keyPair, joinBlocks_halves]

theorem execKeyInit_cases (n : Nat) (s : State) :
    (n ≠ 32 ∧ exec (.keyInit n) s = .next (finish 1 s)) ∨
    (n = 32 ∧ exec (.keyInit n) s = .next (finish 0 (bindKey (schedule s.keybuf) s))) := by
  by_cases h : n = 32 <;> simp [exec, execKeyInit, h, Config.keyBytes, ErrCode.code, okCode]

theorem execEncBlock_cases (n : Nat) (s : State) :
    (n ≠ 16 ∧ exec (.encBlock n) s = .next (finish 2 s)) ∨
    (n = 16 ∧ s.keyed = false ∧ exec (.encBlock n) s = .next (finish 5 s)) ∨
    (n = 16 ∧ s.keyed = true ∧ exec (.encBlock n) s = .next (finish 0 (setDout (encrypt s.rk s.din) s))) := by
  by_cases h : n = 16 <;> cases hk : s.keyed <;>
    simp [exec, execEncBlock, h, hk, Config.blockBytes, ErrCode.code, okCode]

theorem execDecBlock_cases (n : Nat) (s : State) :
    (n ≠ 16 ∧ exec (.decBlock n) s = .next (finish 2 s)) ∨
    (n = 16 ∧ s.keyed = false ∧ exec (.decBlock n) s = .next (finish 5 s)) ∨
    (n = 16 ∧ s.keyed = true ∧ exec (.decBlock n) s = .next (finish 0 (setDout (decrypt s.rk s.din) s))) := by
  by_cases h : n = 16 <;> cases hk : s.keyed <;>
    simp [exec, execDecBlock, h, hk, Config.blockBytes, ErrCode.code, okCode]

theorem execCfbInit_cases (n : Nat) (s : State) :
    (n ≠ 16 ∧ exec (.cfbInit n) s = .next (finish 3 s)) ∨
    (n = 16 ∧ s.keyed = false ∧ exec (.cfbInit n) s = .next (finish 5 s)) ∨
    (n = 16 ∧ s.keyed = true ∧ exec (.cfbInit n) s = .next (finish 0 (startMode s.din s))) := by
  by_cases h : n = 16 <;> cases hk : s.keyed <;>
    simp [exec, execCfbInit, h, hk, Config.blockBytes, ErrCode.code, okCode]

theorem execCfbEnc_cases (n : Nat) (s : State) :
    (16 < n ∧ exec (.cfbEnc n) s = .next (finish 7 s)) ∨
    (n ≤ 16 ∧ s.keyed = false ∧ exec (.cfbEnc n) s = .next (finish 5 s)) ∨
    (n ≤ 16 ∧ s.keyed = true ∧ s.mode = false ∧ exec (.cfbEnc n) s = .next (finish 6 s)) ∨
    (n ≤ 16 ∧ s.keyed = true ∧ s.mode = true ∧ exec (.cfbEnc n) s =
      .next (finish 0 (advanceMode n (chunkOut n s.din (keystream s))
        (setDout (chunkOut n s.din (keystream s)) s)))) := by
  by_cases h : 16 < n <;> cases hk : s.keyed <;> cases hm : s.mode <;>
    simp [exec, execCfbEnc, h, hk, hm, Config.blockBytes, ErrCode.code, okCode] <;> omega

theorem execCfbDec_cases (n : Nat) (s : State) :
    (16 < n ∧ exec (.cfbDec n) s = .next (finish 7 s)) ∨
    (n ≤ 16 ∧ s.keyed = false ∧ exec (.cfbDec n) s = .next (finish 5 s)) ∨
    (n ≤ 16 ∧ s.keyed = true ∧ s.mode = false ∧ exec (.cfbDec n) s = .next (finish 6 s)) ∨
    (n ≤ 16 ∧ s.keyed = true ∧ s.mode = true ∧ exec (.cfbDec n) s =
      .next (finish 0 (advanceMode n s.din (setDout (chunkOut n s.din (keystream s)) s)))) := by
  by_cases h : 16 < n <;> cases hk : s.keyed <;> cases hm : s.mode <;>
    simp [exec, execCfbDec, h, hk, hm, Config.blockBytes, ErrCode.code, okCode] <;> omega

/-- No command stops. -/
theorem exec_next (i : Instr) (s : State) : ∃ t, exec i s = .next t := by
  cases i with
  | keyInit n => rcases execKeyInit_cases n s with ⟨_, h⟩ | ⟨_, h⟩ <;> exact ⟨_, h⟩
  | encBlock n => rcases execEncBlock_cases n s with ⟨_, h⟩ | ⟨_, _, h⟩ | ⟨_, _, h⟩ <;> exact ⟨_, h⟩
  | decBlock n => rcases execDecBlock_cases n s with ⟨_, h⟩ | ⟨_, _, h⟩ | ⟨_, _, h⟩ <;> exact ⟨_, h⟩
  | cfbInit n => rcases execCfbInit_cases n s with ⟨_, h⟩ | ⟨_, _, h⟩ | ⟨_, _, h⟩ <;> exact ⟨_, h⟩
  | cfbEnc n =>
    rcases execCfbEnc_cases n s with ⟨_, h⟩ | ⟨_, _, h⟩ | ⟨_, _, _, h⟩ | ⟨_, _, _, h⟩ <;> exact ⟨_, h⟩
  | cfbDec n =>
    rcases execCfbDec_cases n s with ⟨_, h⟩ | ⟨_, _, h⟩ | ⟨_, _, _, h⟩ | ⟨_, _, _, h⟩ <;> exact ⟨_, h⟩

end Sys2Proof.Machine
end

