-- ==== Sys2Proof/Laws/PerInstr.lean ====
section
/-! SUPPORT. The family `EncodedFields`: what the four fields of a command's word hold (30_encoding.md R64), one lemma a constructor. -/

namespace Sys2Proof.Laws.EncodedFields

/-- In the word of a well-formed command, the reserved fields are 0, LEN is n and OP is the command's (R64, R66). -/
def Statement (i : Instr) : Prop :=
  i.wf = true → fieldRsv1 (encode i) = 0 ∧ fieldRsv0 (encode i) = 0 ∧ (fieldLen (encode i)).toNat = i.len ∧
    fieldOp (encode i) = i.op

/-- The four fields of a word built from four fields. -/
theorem fields_of_append (len : BitVec 6) (op : BitVec 4) :
    fieldRsv1 (0#18 ++ len ++ 0#4 ++ op) = 0 ∧ fieldRsv0 (0#18 ++ len ++ 0#4 ++ op) = 0 ∧
    fieldLen (0#18 ++ len ++ 0#4 ++ op) = len ∧ fieldOp (0#18 ++ len ++ 0#4 ++ op) = op := by
  refine ⟨?_, ?_, ?_, ?_⟩ <;>
  · apply BitVec.eq_of_getLsbD_eq
    intro i hi
    simp only [fieldRsv1, fieldRsv0, fieldLen, fieldOp, BitVec.getLsbD_extractLsb', BitVec.getLsbD_append, hi]
    repeat' split
    all_goals first | omega | (simp; try (congr 1; omega))

theorem of_fields (i : Instr) : Statement i := by
  intro h
  obtain ⟨h1, h2, h3, h4⟩ := fields_of_append (BitVec.ofNat 6 i.len) i.op
  refine ⟨h1, h2, ?_, h4⟩
  have hl : i.len ≤ 63 := of_decide_eq_true h
  rw [show fieldLen (encode i) = BitVec.ofNat 6 i.len from h3, BitVec.toNat_ofNat]
  exact Nat.mod_eq_of_lt (by omega)

theorem keyInit (n : Nat) : Statement (.keyInit n) := of_fields _

theorem encBlock (n : Nat) : Statement (.encBlock n) := of_fields _

theorem decBlock (n : Nat) : Statement (.decBlock n) := of_fields _

theorem cfbInit (n : Nat) : Statement (.cfbInit n) := of_fields _

theorem cfbEnc (n : Nat) : Statement (.cfbEnc n) := of_fields _

theorem cfbDec (n : Nat) : Statement (.cfbDec n) := of_fields _

end Sys2Proof.Laws.EncodedFields
end

