-- ==== Sys2Proof/Laws/Primitives.lean ====
section
/-! SUPPORT. The cipher's functions byte by byte, and a twin of each over lists of numbers that the kernel evaluates quickly: known
answers are computed through the twins. -/

namespace Sys2Proof.Machine

/-! ## Byte by byte -/

theorem xorBlock_getElem (a b : Block) (i : Nat) (hi : i < 16) : (xorBlock a b)[i] = a[i] ^^^ b[i] := by
  simp [xorBlock]

theorem sub_getElem (b : Block) (i : Nat) (hi : i < 16) : (sub b)[i] = pi b[i] := by
  simp [sub]

theorem subInv_getElem (b : Block) (i : Nat) (hi : i < 16) : (subInv b)[i] = piInv b[i] := by
  simp [subInv]

theorem shiftR_zero (b : Block) : (shiftR b)[0] = ell b := by
  simp [shiftR]

theorem shiftR_succ (b : Block) (i : Nat) (hi : i + 1 < 16) : (shiftR b)[i + 1] = b[i] := by
  simp [shiftR]

theorem vec_getElem (n i : Nat) (hi : i < 16) : (vec n)[i] = if i = 15 then BitVec.ofNat 8 n else 0 := by
  simp [vec]

theorem lin_eq (b : Block) : lin b = shiftR^[16] b := rfl

theorem linInv_eq (b : Block) : linInv b = shiftRInv^[16] b := rfl

/-! ## Twins over numbers -/

/-- A block as its 16 byte values. -/
def nums (b : Block) : List Nat := b.toList.map BitVec.toNat

theorem nums_length (b : Block) : (nums b).length = 16 := by simp [nums]

theorem nums_getElem (b : Block) (i : Nat) (hi : i < 16) :
    (nums b)[i]'(by rw [nums_length]; exact hi) = b[i].toNat := by
  simp [nums]

theorem nums_injective (a b : Block) (h : nums a = nums b) : a = b := by
  apply Vector.ext
  intro i hi
  apply BitVec.eq_of_toNat_eq
  rw [← nums_getElem a i hi, ← nums_getElem b i hi]
  simp only [h]

/-- The twin of `gmulLoop`. -/
def gmulNum : Nat → Nat → Nat → Nat → Nat
  | 0, p, _, _ => p
  | k + 1, p, a, b => gmulNum k (p ^^^ (a * (b % 2))) ((a * 2) % 256 ^^^ (0xC3 * (a / 128))) (b / 2)

theorem gmulLoop_toNat (k : Nat) (p a b : Byte) :
    (gmulLoop k p a b).toNat = gmulNum k p.toNat a.toNat b.toNat := by
  induction k generalizing p a b with
  | zero => rfl
  | succ k ih =>
    rw [gmulLoop, gmulNum, ih]
    have ha := a.isLt
    congr 1
    · by_cases h : b.getLsbD 0
      · have h1 : b.toNat % 2 = 1 := by simpa [BitVec.getLsbD, Nat.testBit_zero] using h
        simp [h, h1]
      · have h1 : b.toNat % 2 = 0 := by
          have : ¬ b.toNat % 2 = 1 := by simpa [BitVec.getLsbD, Nat.testBit_zero] using h
          omega
        rw [if_neg h, h1]
        simp
    · have hs : (a <<< 1).toNat = a.toNat * 2 % 256 := by
        simp [BitVec.toNat_shiftLeft, Nat.shiftLeft_eq]
      have hb : a.getLsbD 7 = decide (a.toNat / 128 % 2 = 1) := by
        simp [BitVec.getLsbD, Nat.testBit, Nat.shiftRight_eq_div_pow, beq_eq_decide]
      by_cases h : a.getLsbD 7
      · have h1 : a.toNat / 128 = 1 := by rw [hb] at h; simp at h; omega
        rw [if_pos h, BitVec.toNat_xor, hs, h1]
        rfl
      · have h1 : a.toNat / 128 = 0 := by rw [hb] at h; simp at h; omega
        rw [if_neg h, hs, h1]
        simp

/-- The twin of `dot`. -/
def dotNum (row : List Nat) (l : List Nat) : Nat := (List.zipWith (gmulNum 8 0) row l).foldl (· ^^^ ·) 0

theorem dot_toNat (row : List Byte) (b : Block) : (dot row b).toNat = dotNum (row.map BitVec.toNat) (nums b) := by
  have key : ∀ (l m : List Byte) (acc : Byte), ((List.zipWith gmul l m).foldl (· ^^^ ·) acc).toNat =
      (List.zipWith (gmulNum 8 0) (l.map BitVec.toNat) (m.map BitVec.toNat)).foldl (· ^^^ ·) acc.toNat := by
    intro l
    induction l with
    | nil => intro m acc; simp
    | cons x xs ih =>
      intro m acc
      cases m with
      | nil => simp
      | cons y ys =>
        simp only [List.zipWith_cons_cons, List.foldl_cons, List.map_cons]
        rw [ih, BitVec.toNat_xor, gmul, gmulLoop_toNat]
        rfl
  exact key row b.toList 0

def lcNum : List Nat := [148, 32, 133, 16, 194, 192, 1, 251, 1, 192, 194, 16, 133, 32, 148, 1]

/-- The twin of `shiftR`. -/
def shiftNum (l : List Nat) : List Nat := dotNum lcNum l :: l.dropLast

theorem nums_shiftR (b : Block) : nums (shiftR b) = shiftNum (nums b) := by
  apply List.ext_getElem
  · simp [nums_length, shiftNum]
  · intro i h1 h2
    rw [nums_length] at h1
    rw [nums_getElem _ i h1]
    cases i with
    | zero => rw [shiftR_zero, ell, dot_toNat]; rfl
    | succ i => rw [shiftR_succ _ _ h1]; simp [shiftNum, nums_getElem b i (by omega)]

/-- The twin of `k` shifts. -/
def shiftsNum : Nat → List Nat → List Nat
  | 0, l => l
  | k + 1, l => shiftsNum k (shiftNum l)

theorem nums_shifts (k : Nat) (b : Block) : nums (shiftR^[k] b) = shiftsNum k (nums b) := by
  induction k generalizing b with
  | zero => rfl
  | succ k ih => rw [Function.iterate_succ_apply, ih, nums_shiftR]; rfl

theorem nums_lin (b : Block) : nums (lin b) = shiftsNum 16 (nums b) := nums_shifts 16 b

/-- The twin of `sub`. -/
def subNum (l : List Nat) : List Nat := l.map fun x => (pi (BitVec.ofNat 8 x)).toNat

theorem nums_sub (b : Block) : nums (sub b) = subNum (nums b) := by
  apply List.ext_getElem
  · simp [nums_length, subNum]
  · intro i h1 h2
    rw [nums_length] at h1
    rw [nums_getElem _ i h1, sub_getElem _ _ h1]
    simp [subNum, nums_getElem _ i h1]

theorem nums_xorBlock (a b : Block) : nums (xorBlock a b) = List.zipWith (· ^^^ ·) (nums a) (nums b) := by
  apply List.ext_getElem
  · simp [nums_length]
  · intro i h1 h2
    rw [nums_length] at h1
    rw [nums_getElem _ i h1, xorBlock_getElem _ _ _ h1]
    simp [nums_getElem _ i h1]

/-- The twin of `lsx`. -/
def lsxNum (k l : List Nat) : List Nat := shiftsNum 16 (subNum (List.zipWith (· ^^^ ·) k l))

theorem nums_lsx (k b : Block) : nums (lsx k b) = lsxNum (nums k) (nums b) := by
  rw [lsx, nums_lin, nums_sub, nums_xorBlock, lsxNum]

/-- The twin of `encrypt`: the keys of the full rounds, the last key, the block. -/
def encryptNum (ks : List (List Nat)) (k l : List Nat) : List Nat :=
  List.zipWith (· ^^^ ·) k (ks.foldl (fun a k => lsxNum k a) l)

theorem nums_encrypt (rk : Vector Block 10) (b : Block) :
    nums (encrypt rk b) = encryptNum ((fullRoundKeys rk).map nums) (nums rk[9]) (nums b) := by
  have key : ∀ (ks : List Block) (x : Block),
      nums (ks.foldl (fun a k => lsx k a) x) = (ks.map nums).foldl (fun a k => lsxNum k a) (nums x) := by
    intro ks
    induction ks with
    | nil => intro x; rfl
    | cons k ks ih => intro x; rw [List.foldl_cons, ih, nums_lsx]; rfl
  rw [encrypt, nums_xorBlock, key, encryptNum]

/-- The twin of `shiftRInv`: the first byte goes round to the end, and ℓ is taken of what that gives. -/
def unshiftNum (l : List Nat) : List Nat := l.tail ++ [dotNum lcNum (l.tail ++ l.take 1)]

theorem nums_rotate (b : Block) : nums (rotate b) = (nums b).tail ++ (nums b).take 1 := by
  apply List.ext_getElem
  · simp [nums_length]
  · intro i h1 h2
    rw [nums_length] at h1
    rw [nums_getElem _ i h1]
    by_cases h : i = 15
    · subst h; simp [rotate, nums_length, nums_getElem b 0 (by omega)]
    · rw [List.getElem_append_left (by simp [nums_length]; omega), List.getElem_tail, nums_getElem b (i + 1) (by omega)]
      simp [rotate, Nat.mod_eq_of_lt (show i + 1 < 16 by omega)]

theorem nums_shiftRInv (b : Block) : nums (shiftRInv b) = unshiftNum (nums b) := by
  apply List.ext_getElem
  · simp [nums_length, unshiftNum]
  · intro i h1 h2
    rw [nums_length] at h1
    rw [nums_getElem _ i h1]
    by_cases h : i = 15
    · subst h
      have hl : (shiftRInv b)[15] = ell (rotate b) := by simp [shiftRInv]
      rw [hl, ell, dot_toNat, nums_rotate]
      simp [unshiftNum, nums_length]
      rfl
    · simp only [unshiftNum]
      rw [List.getElem_append_left (by simp [nums_length]; omega), List.getElem_tail, nums_getElem b (i + 1) (by omega)]
      simp [shiftRInv, h, Nat.mod_eq_of_lt (show i + 1 < 16 by omega)]

/-- The twin of `k` inverse shifts. -/
def unshiftsNum : Nat → List Nat → List Nat
  | 0, l => l
  | k + 1, l => unshiftsNum k (unshiftNum l)

theorem nums_unshifts (k : Nat) (b : Block) : nums (shiftRInv^[k] b) = unshiftsNum k (nums b) := by
  induction k generalizing b with
  | zero => rfl
  | succ k ih => rw [Function.iterate_succ_apply, ih, nums_shiftRInv]; rfl

theorem nums_linInv (b : Block) : nums (linInv b) = unshiftsNum 16 (nums b) := nums_unshifts 16 b

/-- The twin of `subInv`. -/
def subInvNum (l : List Nat) : List Nat := l.map fun x => (piInv (BitVec.ofNat 8 x)).toNat

theorem nums_subInv (b : Block) : nums (subInv b) = subInvNum (nums b) := by
  apply List.ext_getElem
  · simp [nums_length, subInvNum]
  · intro i h1 h2
    rw [nums_length] at h1
    rw [nums_getElem _ i h1, subInv_getElem _ _ h1]
    simp [subInvNum, nums_getElem _ i h1]

/-- The twin of `decrypt`: the keys of the full rounds from the last, the last key, the block. -/
def decryptNum (ks : List (List Nat)) (k l : List Nat) : List Nat :=
  ks.foldl (fun a k => List.zipWith (· ^^^ ·) k (subInvNum (unshiftsNum 16 a))) (List.zipWith (· ^^^ ·) k l)

theorem nums_decrypt (rk : Vector Block 10) (b : Block) :
    nums (decrypt rk b) = decryptNum ((fullRoundKeys rk).reverse.map nums) (nums rk[9]) (nums b) := by
  have key : ∀ (ks : List Block) (x : Block),
      nums (ks.foldl (fun a k => xorBlock k (subInv (linInv a))) x) =
        (ks.map nums).foldl (fun a k => List.zipWith (· ^^^ ·) k (subInvNum (unshiftsNum 16 a))) (nums x) := by
    intro ks
    induction ks with
    | nil => intro x; rfl
    | cons k ks ih =>
      intro x
      rw [List.foldl_cons, ih, nums_xorBlock, nums_subInv, nums_linInv]
      rfl
  rw [decrypt, key, nums_xorBlock, decryptNum]

/-- The twin of `roundConst` for i < 256. -/
def constNum (i : Nat) : List Nat := shiftsNum 16 (List.replicate 15 0 ++ [i % 256])

theorem nums_roundConst (i : Nat) : nums (roundConst i) = constNum i := by
  rw [roundConst, nums_lin, constNum]
  refine congrArg (shiftsNum 16) ?_
  apply List.ext_getElem
  · simp [nums_length]
  · intro j h1 h2
    rw [nums_length] at h1
    rw [nums_getElem _ j h1, vec_getElem _ _ h1]
    by_cases h : j = 15
    · subst h; simp
    · rw [if_neg h, List.getElem_append_left (by simp; omega), List.getElem_replicate]; rfl

/-- The twin of `feistel`. -/
def feistelNum (c : List Nat) (p : List Nat × List Nat) : List Nat × List Nat :=
  (List.zipWith (· ^^^ ·) (lsxNum c p.1) p.2, p.1)

/-- A pair of blocks as its byte values. -/
def nums2 (p : Block × Block) : List Nat × List Nat := (nums p.1, nums p.2)

theorem nums2_feistel (c : Block) (p : Block × Block) : nums2 (feistel c p) = feistelNum (nums c) (nums2 p) := by
  simp only [nums2, feistel, feistelNum, nums_xorBlock, nums_lsx]

/-- The twin of `feistelGroup`. -/
def groupNum (p : List Nat × List Nat) (j : Nat) : List Nat × List Nat :=
  (List.range 8).foldl (fun q t => feistelNum (constNum (8 * (j - 1) + (t + 1))) q) p

theorem nums2_feistelGroup (p : Block × Block) (j : Nat) : nums2 (feistelGroup p j) = groupNum (nums2 p) j := by
  have key : ∀ (ts : List Nat) (q : Block × Block),
      nums2 (ts.foldl (fun q t => feistel (roundConst (8 * (j - 1) + (t + 1))) q) q) =
        ts.foldl (fun q t => feistelNum (constNum (8 * (j - 1) + (t + 1))) q) (nums2 q) := by
    intro ts
    induction ts with
    | nil => intro q; rfl
    | cons t ts ih => intro q; rw [List.foldl_cons, ih, nums2_feistel, nums_roundConst]; rfl
  exact key _ p

end Sys2Proof.Machine
end

