-- ==== Sys2Proof/Laws/Step.lean ====
section
/-! SUPPORT. What a completion and a step can do, said once, and how runs compose. -/

namespace Sys2Proof.Machine

/-- A completion executes the decoded command, or raises IllegalCommand; with nothing pending it stops. -/
theorem complete_cases (s : State) :
    (s.pend = none ∧ complete s = .fault .noPendingCommand) ∨
    (∃ w i, s.pend = some w ∧ decode w = .instr i ∧ complete s = exec i s) ∨
    (∃ w y, s.pend = some w ∧ decode w = .illegal y ∧ complete s = .next (finish 4 s)) := by
  unfold complete
  cases hp : s.pend with
  | none => exact .inl ⟨rfl, rfl⟩
  | some w =>
    cases hd : decode w with
    | instr i => exact .inr (.inl ⟨w, i, rfl, hd, by simp [hd]⟩)
    | illegal y => exact .inr (.inr ⟨w, y, rfl, hd, by simp [hd, ErrCode.code]⟩)

/-- The core's turn is the completion when it is enabled, and nothing otherwise. -/
theorem coreTurn_cases (s : State) :
    (s.busy = true ∧ s.resetLine = false ∧ coreTurn s = complete s) ∨
    ((s.busy = false ∨ s.resetLine = true) ∧ coreTurn s = .next s) := by
  unfold coreTurn
  cases s.busy <;> cases s.resetLine <;> simp

/-- A poll lets the pending command complete and stays next, or makes its last read. -/
theorem hostPoll_cases (s : State) :
    (s.busy = true ∧ s.resetLine = false ∧ hostPoll s = complete (setEvents (.poll :: s.events) s)) ∨
    ((s.busy = false ∨ s.resetLine = true) ∧ hostPoll s = hostAccess (.read 32 0x004) s) := by
  unfold hostPoll
  cases s.busy <;> cases s.resetLine <;> simp [Config.busWidth]

/-- A step is the next event, or the core's turn when none is left. -/
theorem step_cases (s : State) :
    (s.events = [] ∧ step s = coreTurn s) ∨
    (∃ e es, s.events = e :: es ∧ step s = handleEvent e (setEvents es s)) := by
  unfold step advance
  cases h : s.events with
  | nil => exact .inl ⟨rfl, rfl⟩
  | cons e es => exact .inr ⟨e, es, rfl, rfl⟩

/-! ## Runs -/

@[simp] theorem run_zero (s : State) : run 0 s = .next s := rfl

theorem run_succ (k : Nat) (s t : State) (h : step s = .next t) : run (k + 1) s = run k t := by
  simp only [run, h]

/-- A run that reaches a next state took a first step that did. -/
theorem run_succ_next (k : Nat) (s t : State) (h : run (k + 1) s = .next t) :
    ∃ u, step s = .next u ∧ run k u = .next t := by
  cases hs : step s <;> simp [run, hs] at h
  exact ⟨_, rfl, h⟩

/-- Any function that iterates a machine's step as `Host.Core.run` does is `Host.Core.run`. -/
theorem core_run_unique (M : Host.Core) (f : Nat → M.State → Host.Outcome M.State M.Fault M.Refusal)
    (h0 : ∀ s, f 0 s = .next s) (hn : ∀ k s t, M.step s = .next t → f (k + 1) s = f k t)
    (hf : ∀ k s r, M.step s = .fault r → f (k + 1) s = .fault r)
    (hr : ∀ k s r, M.step s = .refused r → f (k + 1) s = .refused r) (k : Nat) (s : M.State) :
    M.run k s = f k s := by
  induction k generalizing s with
  | zero => exact (h0 s).symm
  | succ k ih =>
    rw [Host.Core.run]
    cases h : M.step s with
    | next t => simp [hn k s t h, ih]
    | fault r => simp [hf k s r h]
    | refused r => simp [hr k s r h]

theorem run_fault (k : Nat) (s : State) (r : Fault) (h : step s = .fault r) : run (k + 1) s = .fault r := by
  simp only [run, h]

theorem run_refused (k : Nat) (s : State) (r : Refusal) (h : step s = .refused r) :
    run (k + 1) s = .refused r := by
  simp only [run, h]

/-- `run` is the host's own `Host.Core.run` of this machine. -/
theorem run_eq_core (k : Nat) (s : State) : Host.Core.run Sys2Proof.core k s = run k s :=
  core_run_unique Sys2Proof.core run (fun _ => rfl) run_succ run_fault run_refused k s

/-- A run of `j + k` steps is a run of `j` and then one of `k`. -/
theorem run_add (j k : Nat) (s t : State) (h : run j s = .next t) : run (j + k) s = run k t := by
  induction j generalizing s with
  | zero => simp_all
  | succ j ih =>
    obtain ⟨u, hs, hu⟩ := run_succ_next j s t h
    rw [Nat.succ_add, run_succ _ s u hs]
    exact ih u hu

/-- Package an induction over runs once: what every step keeps, every run keeps. -/
theorem run_keeps (P : State → Prop) (hstep : ∀ s t, P s → step s = .next t → P t) (k : Nat) (s t : State)
    (hs : P s) (h : run k s = .next t) : P t := by
  induction k generalizing s with
  | zero => simp only [run_zero, Host.Outcome.next.injEq] at h; exact h ▸ hs
  | succ k ih =>
    obtain ⟨u, hst, hu⟩ := run_succ_next k s t h
    exact ih u (hstep s u hs hst) hu

/-- An ended run stays as it is. -/
theorem step_ended (s : State) (h : RunEnded s) : step s = .next s := by
  rcases step_cases s with ⟨_, hs⟩ | ⟨e, es, he, _⟩
  · rcases coreTurn_cases s with ⟨hb, _, _⟩ | ⟨_, hc⟩
    · simp [RunEnded, hb] at h
    · rw [hs, hc]
  · simp [RunEnded, he] at h

theorem run_ended (k : Nat) (s : State) (h : RunEnded s) : run k s = .next s := by
  induction k with
  | zero => rfl
  | succ k ih => rw [run_succ k s s (step_ended s h), ih]

end Sys2Proof.Machine
end

