-- ==== Sys2Proof/Tests/Slice0.lean ====
section
/-! SUPPORT. The model's own tests, with expected values from 95_test_vectors.md and 30_encoding.md R76, and for each statement with
hypotheses a concrete state and operands that meet them. -/

namespace Sys2Proof.Machine

/-! ## Well-formedness: LEN is 6 bits (30_encoding.md R64) -/

theorem test_wf_refuses_keyInit : (Instr.keyInit 64).wf = false := by decide
theorem test_wf_refuses_encBlock : (Instr.encBlock 64).wf = false := by decide
theorem test_wf_refuses_decBlock : (Instr.decBlock 64).wf = false := by decide
theorem test_wf_refuses_cfbInit : (Instr.cfbInit 64).wf = false := by decide
theorem test_wf_refuses_cfbEnc : (Instr.cfbEnc 64).wf = false := by decide
theorem test_wf_refuses_cfbDec : (Instr.cfbDec 64).wf = false := by decide
theorem test_wf_admits_every_len : ∀ n : Fin 64, (Instr.cfbEnc n.val).wf = true := by decide

/-! ## Decoding words written out from the format of R64 (R76) -/

/-- RSV1 = 0, LEN = 100000, RSV0 = 0, OP = 0001. -/
theorem test_decode_keyInit : decode 0b00000000000000000010000000000001 = .instr (.keyInit 32) := by decide
/-- RSV1 = 0, LEN = 010000, RSV0 = 0, OP = 0010. -/
theorem test_decode_encBlock : decode 0b00000000000000000001000000000010 = .instr (.encBlock 16) := by decide
/-- RSV1 = 0, LEN = 010000, RSV0 = 0, OP = 0011. -/
theorem test_decode_decBlock : decode 0b00000000000000000001000000000011 = .instr (.decBlock 16) := by decide
/-- RSV1 = 0, LEN = 001111, RSV0 = 0, OP = 0100. -/
theorem test_decode_cfbInit : decode 0b00000000000000000000111100000100 = .instr (.cfbInit 15) := by decide
/-- RSV1 = 0, LEN = 000100, RSV0 = 0, OP = 0101. -/
theorem test_decode_cfbEnc : decode 0b00000000000000000000010000000101 = .instr (.cfbEnc 4) := by decide
/-- RSV1 = 0, LEN = 111111, RSV0 = 0, OP = 0110. -/
theorem test_decode_cfbDec : decode 0b00000000000000000011111100000110 = .instr (.cfbDec 63) := by decide
/-- The words of V32 and V33. -/
theorem test_decode_illegal : ∀ w ∈ [0x00000000, 0x00001007, 0x0000100F, 0x00001012, 0x00011005, 0x80002001, 0x00001F12],
    decodeTableWord 32 w = none := by decide +kernel
theorem test_encode_cfbDec : encode (.cfbDec 17) = 0x00001106 := by decide
theorem test_tableWord_runs : decodeTableWord 32 0x00002001 = some (.keyInit 32) := by decide

/-! ## Small states -/

/-- The KAT key of 95_test_vectors.md. -/
def katKey : Key :=
  #v[0x88, 0x99, 0xaa, 0xbb, 0xcc, 0xdd, 0xee, 0xff, 0x00, 0x11, 0x22, 0x33, 0x44, 0x55, 0x66, 0x77,
    0xfe, 0xdc, 0xba, 0x98, 0x76, 0x54, 0x32, 0x10, 0x01, 0x23, 0x45, 0x67, 0x89, 0xab, 0xcd, 0xef]

/-- The block with these 32 hex digits, byte 0 first (00_scope.md R11). -/
def hexBlock (v : Nat) : Block := Vector.ofFn fun i => BitVec.ofNat 8 (v / 256 ^ (15 - i.val))

/-- The round keys of the KAT key (V3). -/
def katRoundKeys : Vector Block 10 :=
  #v[hexBlock 0x8899aabbccddeeff0011223344556677, hexBlock 0xfedcba98765432100123456789abcdef,
    hexBlock 0xdb31485315694343228d6aef8cc78c44, hexBlock 0x3d4553d8e9cfec6815ebadc40a9ffd04,
    hexBlock 0x57646468c44a5e28d3e59246f429f1ac, hexBlock 0xbd079435165c6432b532e82834da581b,
    hexBlock 0x51e640757e8745de705727265a0098b1, hexBlock 0x5a7925017b9fdd3ed72a91a22286f984,
    hexBlock 0xbb44e25378c73123a5f32f73cdb6e517, hexBlock 0x72e9dd7416bcf45b755dbaa88e4a4043]

/-- The IV of 95_test_vectors.md. -/
def ivBlock : Block := hexBlock 0x1234567890abcef0a1b2c3d4e5f00112

/-- The block of V1. -/
def plainBlock : Block := hexBlock 0x1122334455667700ffeeddccbbaa9988

/-- A core with a cipher instance, of the all-zero key. -/
def keyedState : State := { State.reset with keyed := true, rk := schedule zeroKey }

/-- A core with a mode instance. -/
def modedState : State := { keyedState with mode := true, fr := ivBlock }

/-- A core with the KAT round keys and a mode instance whose FR is `fr`. -/
def katState (fr input : Block) : State :=
  { State.reset with keyed := true, mode := true, rk := katRoundKeys, fr := fr, din := input }

/-- A core that has accepted w. -/
def pending (w : Word) (s : State) : State := { s with pend := some w, busy := true }

/-- The outcome is a next state with this property. -/
def endsIn (p : State → Bool) (r : Result) : Bool :=
  match r with
  | .next t => p t
  | .fault _ => false
  | .refused _ => false

/-! ## Primitives and key schedule -/

theorem test_gmul : gmul 0x80 0x02 = 0xC3 ∧ gmul 0xFF 0xFF = 0x06 ∧ gmul 0x87 0x10 = 0xA7 ∧ gmul 0x57 0x83 = 0xF2 := by
  decide +kernel
theorem test_sub : sub (hexBlock 0xffeeddccbbaa99881122334455667700) = hexBlock 0xb66cd8887d38e8d77765aeea0c9a7efc := by
  decide +kernel
theorem test_shiftR : shiftR (hexBlock 0x94000000000000000000000000000001) = hexBlock 0xa5940000000000000000000000000000 := by
  decide +kernel
theorem test_shiftRInv : shiftRInv (hexBlock 0x0102030405060708090a0b0c0d0e0f10) = hexBlock 0x02030405060708090a0b0c0d0e0f10ea := by
  decide +kernel
theorem test_lin : lin (hexBlock 0x64a59400000000000000000000000000) = hexBlock 0xd456584dd0e3e84cc3166e4b7fa2890d :=
  nums_injective _ _ (by rw [nums_lin]; decide +kernel)
theorem test_linInv : linInv (hexBlock 0xe6a8094fee0aa204fd97bcb0b44b8580) = hexBlock 0x0e93691a0cfc60408b7b68f66b513c13 :=
  nums_injective _ _ (by rw [nums_linInv]; decide +kernel)
theorem test_roundConst : roundConst 1 = hexBlock 0x6ea276726c487ab85d27bd10dd849401 :=
  nums_injective _ _ (by rw [nums_roundConst]; decide +kernel)

/-- V3: RK[3] and RK[4] of the KAT key, the first Feistel group. -/
theorem test_schedule_first_group :
    keyPair katKey 1 = (hexBlock 0xdb31485315694343228d6aef8cc78c44, hexBlock 0x3d4553d8e9cfec6815ebadc40a9ffd04) := by
  have h : nums2 (keyPair katKey 1) =
      (nums (hexBlock 0xdb31485315694343228d6aef8cc78c44), nums (hexBlock 0x3d4553d8e9cfec6815ebadc40a9ffd04)) := by
    rw [keyPair, nums2_feistelGroup]; decide +kernel
  exact Prod.ext (nums_injective _ _ (congrArg Prod.fst h)) (nums_injective _ _ (congrArg Prod.snd h))

/-! ## Commands -/

/-- V4. -/
theorem test_keyInit_31 : endsIn (fun t => t.err == 1 && !t.keyed && statusWord t == 0x00000100) (exec (.keyInit 31) State.reset) = true := by
  decide
/-- V31: KEY_INIT ends the mode instance, and STATUS is 0x00000002. -/
theorem test_keyInit_ends_mode : endsIn (fun t => statusWord t == 0x00000002 && t.fr == zeroBlock) (exec (.keyInit 32) modedState) = true := by
  decide +kernel

/-- V1. -/
theorem test_encBlock_kat : encrypt katRoundKeys plainBlock = hexBlock 0x7f679d90bebc24305a468d42b9d4edcd :=
  nums_injective _ _ (by rw [nums_encrypt]; decide +kernel)
/-- V30. -/
theorem test_encBlock_noKey : endsIn (fun t => statusWord t == 0x00000500 && t.dout == zeroBlock) (exec (.encBlock 16) State.reset) = true := by
  decide

/-- V18. -/
theorem test_decBlock_kat : decrypt katRoundKeys zeroBlock = hexBlock 0x4873c2049c1dbec9d591a698856d1a21 :=
  nums_injective _ _ (by rw [nums_decrypt]; decide +kernel)
theorem test_decBlock_short : endsIn (fun t => t.err == 2 && t.dout == zeroBlock) (exec (.decBlock 15) State.reset) = true := by
  decide

/-- V6. -/
theorem test_cfbInit_15 : endsIn (fun t => statusWord t == 0x00000302) (exec (.cfbInit 15) keyedState) = true := by
  decide +kernel
theorem test_cfbInit : endsIn (fun t => statusWord t == 0x00000006 && t.fr == ivBlock)
    (exec (.cfbInit 16) { keyedState with din := ivBlock, part := true }) = true := by
  decide +kernel

/-- The keystream of V22, k = 1. -/
theorem test_keystream : encrypt katRoundKeys (hexBlock 0x81800a59b1842b24ff1f795e897abd95) = hexBlock 0x68d09baf09a0fab01d879d82795d32b5 :=
  nums_injective _ _ (by rw [nums_encrypt]; decide +kernel)
/-- V24, chunk 1: 4 bytes. -/
theorem test_cfbEnc_partial : ∃ t,
    exec (.cfbEnc 4) (katState (hexBlock 0x81800a59b1842b24ff1f795e897abd95) (hexBlock 0x001122330ff0eeddccbbaa9911223344)) = .next t ∧
    t.dout = hexBlock 0x68c1b99c000000000000000000000000 ∧ t.fr = hexBlock 0x81800a59b1842b24ff1f795e897abd95 ∧
    statusWord t = 0x0000000E := by
  refine ⟨_, rfl, ?_, rfl, rfl⟩
  change chunkOut 4 _ (encrypt katRoundKeys (hexBlock 0x81800a59b1842b24ff1f795e897abd95)) = _
  rw [test_keystream]
  decide
/-- V33: length comes before NoKey. -/
theorem test_cfbEnc_17 : endsIn (fun t => t.err == 7) (exec (.cfbEnc 17) State.reset) = true := by decide

/-- V22 and V23, k = 1: DEC gives the plaintext chunk, and FR takes the input. -/
theorem test_cfbDec_full : ∃ t,
    exec (.cfbDec 16) (katState (hexBlock 0x81800a59b1842b24ff1f795e897abd95) (hexBlock 0x68c1b99c4df59cc7951e3739b5b3cdbf)) = .next t ∧
    t.dout = hexBlock 0x00112233445566778899aabbcceeff0a ∧ t.fr = hexBlock 0x68c1b99c4df59cc7951e3739b5b3cdbf ∧
    statusWord t = 0x00000006 := by
  refine ⟨_, rfl, ?_, rfl, rfl⟩
  change chunkOut 16 _ (encrypt katRoundKeys (hexBlock 0x81800a59b1842b24ff1f795e897abd95)) = _
  rw [test_keystream]
  decide
/-- V33: NoMode. -/
theorem test_cfbDec_noMode : endsIn (fun t => t.err == 6) (exec (.cfbDec 0) keyedState) = true := by decide

/-! ## The window -/

/-- P1: KEY0 and the last KEY word. -/
theorem test_write_key : (memWrite 0x03C 0x89abcdef State.reset).keybuf[28] = 0x89 ∧
    (memWrite 0x03C 0x89abcdef State.reset).keybuf[31] = 0xef := by decide
theorem test_write_busy : memWrite 0x04C 1 (pending 0x00001002 State.reset) = { pending 0x00001002 State.reset with ovr := true } := by
  decide
theorem test_read_din : memRead 0x040 { State.reset with din := plainBlock } = 0x11223344 := by decide
/-- V36. -/
theorem test_info : memRead 0x008 State.reset = 0x010A2010 := by decide
/-- V37. -/
theorem test_refused : ∀ a ∈ [Access.read 8 0x050, .write 32 0x042 1, .write 16 0x000 0x1002],
    hostAccess a State.reset = .next { State.reset with seen := [.refused a] } := by
  intro a ha
  simp only [List.mem_cons, List.not_mem_nil, or_false] at ha
  rcases ha with rfl | rfl | rfl <;> rfl

/-! ## Witnesses: the hypotheses of the statements can be met -/

/-- ReservedWordsRaiseIllegalCommand: both clauses, at OP 0, OP 7, RSV0's ends and RSV1's ends, and a legal word. -/
theorem witness_reserved_words :
    (∀ w ∈ [0x00000000#32, 0x00001007, 0x00001012, 0x00001082, 0x00005005, 0x80002001], (pending w State.reset).pend = some w ∧
      (w.extractLsb' 0 4 = 0 ∨ 7 ≤ (w.extractLsb' 0 4).toNat ∨
        ∃ k, (4 ≤ k ∧ k ≤ 7 ∨ 14 ≤ k ∧ k ≤ 31) ∧ w.getLsbD k = true)) ∧
    (pending 0x00002001 State.reset).pend = some 0x00002001 ∧
      ¬((0x00002001#32).extractLsb' 0 4 = 0 ∨ 7 ≤ ((0x00002001#32).extractLsb' 0 4).toNat ∨
        ∃ k, (4 ≤ k ∧ k ≤ 7 ∨ 14 ≤ k ∧ k ≤ 31) ∧ (0x00002001#32).getLsbD k = true) := by
  refine ⟨?_, rfl, ?_⟩
  · intro w hw
    refine ⟨rfl, ?_⟩
    simp only [List.mem_cons, List.not_mem_nil, or_false] at hw
    rcases hw with rfl | rfl | rfl | rfl | rfl | rfl
    · exact .inl (by decide)
    · exact .inr (.inl (by decide))
    · exact .inr (.inr ⟨4, by decide, by decide⟩)
    · exact .inr (.inr ⟨7, by decide, by decide⟩)
    · exact .inr (.inr ⟨14, by decide, by decide⟩)
    · exact .inr (.inr ⟨31, by decide, by decide⟩)
  · rintro (h | h | ⟨k, hk, h⟩)
    · exact absurd h (by decide)
    · exact absurd h (by decide)
    · have hall : ∀ k : Fin 32, (4 ≤ k.val ∧ k.val ≤ 7 ∨ 14 ≤ k.val ∧ k.val ≤ 31) → (0x00002001#32).getLsbD k.val = false := by decide
      have h' := hall ⟨k, by omega⟩ hk
      rw [h'] at h
      exact absurd h (by decide)

/-- RowsMatchTheirMasks: each row with its least and greatest n. -/
theorem witness_rows :
    decode 0x0001 = .instr (.keyInit 0) ∧ decode 0x3F01 = .instr (.keyInit 63) ∧ decode 0x0002 = .instr (.encBlock 0) ∧
    decode 0x3F02 = .instr (.encBlock 63) ∧ decode 0x0003 = .instr (.decBlock 0) ∧ decode 0x3F03 = .instr (.decBlock 63) ∧
    decode 0x0004 = .instr (.cfbInit 0) ∧ decode 0x3F04 = .instr (.cfbInit 63) ∧ decode 0x0005 = .instr (.cfbEnc 0) ∧
    decode 0x3F05 = .instr (.cfbEnc 63) ∧ decode 0x0006 = .instr (.cfbDec 0) ∧ decode 0x3F06 = .instr (.cfbDec 63) := by decide

/-- DecodeEncodeAgree: both sides hold of a term at the greatest LEN. -/
theorem witness_decode_encode : decode 0x3F06 = .instr (.cfbDec 63) ∧ (Instr.cfbDec 63).wf = true ∧ encode (.cfbDec 63) = 0x3F06 := by
  decide

/-- MnemonicsAssembleToOneWrite: n at both sides of the limit. -/
theorem witness_mnemonics : 63 ≤ 63 ∧ 63 < 64 ∧ (KzCommand.cfbenc 63).program = some [wr 0x000 0x3F05] ∧
    (KzCommand.cfbenc 64).program = none := by decide

/-- StepRunsThePendingCommand: a busy core with a legal and with an illegal word, at each of the three kinds of step. -/
theorem witness_step_runs :
    (∀ w ∈ [0x00001005#32, 0x00001012], ∀ es ∈ [[], [Event.poll], [Event.core, .poll]],
      (setEvents es (pending w keyedState)).busy = true ∧ (setEvents es (pending w keyedState)).resetLine = false ∧
      (setEvents es (pending w keyedState)).pend = some w ∧ (setEvents es (pending w keyedState)).events = es) ∧
    decode 0x00001005 = .instr (.cfbEnc 16) ∧ decode 0x00001012 = .illegal .reservedBits ∧
    decodeTableWord 32 0x00001005 = some (.cfbEnc 16) :=
  ⟨fun _ _ _ _ => ⟨rfl, rfl, rfl, rfl⟩, by decide, by decide, by decide⟩

/-- PollReadsTheCompletedStatus. -/
theorem witness_poll :
    (setEvents [.poll, .core] (pending 0x00001002 keyedState)).events = .poll :: [.core] ∧
    (setEvents [.poll, .core] (pending 0x00001002 keyedState)).busy = true ∧
    (setEvents [.poll, .core] (pending 0x00001002 keyedState)).resetLine = false ∧
    (setEvents [.poll, .core] (pending 0x00001002 keyedState)).pend = some 0x00001002 := ⟨rfl, rfl, rfl, rfl⟩

/-- KeyInitCompletes: lengths on both sides of 32. -/
theorem witness_keyInit : 31 ≠ 32 ∧ 33 ≠ 32 := by decide

/-- EncBlockCompletes: a keyed core, and the sequence of round states its inner hypotheses ask for. -/
theorem witness_encBlock : keyedState.keyed = true ∧ ∃ a : Nat → Block, a 0 = keyedState.din ∧
    ∀ i : Fin 9, a (i.val + 1) = lin (sub (xorBlock keyedState.rk[i.val] (a i.val))) := by
  refine ⟨rfl, fun n => n.rec keyedState.din fun i x =>
    if h : i < 9 then lin (sub (xorBlock keyedState.rk[i] x)) else x, rfl, ?_⟩
  intro i
  exact dif_pos i.isLt

/-- DecBlockCompletes: a keyed core, and the sequence of round states its inner hypotheses ask for. -/
theorem witness_decBlock : keyedState.keyed = true ∧ ∃ a : Nat → Block, a 9 = xorBlock keyedState.rk[9] keyedState.din ∧
    ∀ i : Fin 9, a i.val = xorBlock keyedState.rk[i.val] (subInv (linInv (a (i.val + 1)))) := by
  refine ⟨rfl, fun n => (9 - n).rec (xorBlock keyedState.rk[9] keyedState.din) fun i x =>
    if h : i < 9 then xorBlock keyedState.rk[8 - i] (subInv (linInv x)) else x, rfl, ?_⟩
  intro i
  have e : 9 - i.val = (8 - i.val) + 1 := by omega
  have e' : 9 - (i.val + 1) = 8 - i.val := by omega
  have e'' : 8 - (8 - i.val) = i.val := by omega
  simp only [e, e']
  rw [dif_pos (by omega)]
  simp only [e'']

/-- CfbInitCompletes, CfbEncCompletes and CfbDecCompletes: n at 0, 15 and 16. -/
theorem witness_cfb : keyedState.keyed = true ∧ modedState.keyed = true ∧ modedState.mode = true ∧ 0 ≤ 16 ∧ 15 ≤ 16 ∧ 16 ≤ 16 ∧
    (1 ≤ 15 ∧ 15 ≤ 15) := by
  exact ⟨rfl, rfl, rfl, by decide⟩

/-- CompletionReportsFirstError: a word of each outcome, on a core in the state that gives it. -/
theorem witness_errors :
    endsIn (fun t => t.err == 4) (complete (pending 0x00001F12 State.reset)) = true ∧
    endsIn (fun t => t.err == 1) (complete (pending 0x00002101 State.reset)) = true ∧
    endsIn (fun t => t.err == 2) (complete (pending 0x00001103 State.reset)) = true ∧
    endsIn (fun t => t.err == 3) (complete (pending 0x00000F04 State.reset)) = true ∧
    endsIn (fun t => t.err == 7) (complete (pending 0x00001105 State.reset)) = true ∧
    endsIn (fun t => t.err == 5) (complete (pending 0x00000405 State.reset)) = true ∧
    endsIn (fun t => t.err == 6) (complete (pending 0x00001005 keyedState)) = true ∧
    endsIn (fun t => t.err == 0) (complete (pending 0x00001004 keyedState)) = true := by decide +kernel

/-- CommandsKeepWhatTheyDoNotWrite, ModeInstanceStateMachine: every command ends in a next state, here on a running stream, with LEN
accepted and not; and success is among them. -/
theorem witness_exec_next :
    (∀ i ∈ [Instr.keyInit 32, .keyInit 31, .encBlock 16, .decBlock 16, .cfbInit 16, .cfbEnc 0, .cfbEnc 15, .cfbEnc 16, .cfbEnc 17, .cfbDec 15, .cfbDec 16],
      ∃ t, exec i modedState = .next t) ∧
    endsIn (fun t => t.err == 0 && t.part) (exec (.cfbEnc 15) modedState) = true ∧
    endsIn (fun t => t.err == 0 && t.part) (exec (.cfbEnc 1) modedState) = true ∧
    endsIn (fun t => t.err == 0 && !t.part) (exec (.cfbDec 16) modedState) = true ∧
    endsIn (fun t => t.err == 0 && !t.part) (exec (.cfbDec 0) modedState) = true :=
  ⟨fun i _ => exec_next i _, rfl, rfl, rfl, rfl⟩

/-- OnlyKeyInitOrResetChangesRoundKeys: reset changes a nonzero RK, and so does KEY_INIT. -/
theorem witness_round_keys_change :
    (∃ t, exec (.keyInit 32) State.reset = .next t) ∧
    (∃ t, step { State.reset with rk := katRoundKeys, events := [.resetAssert] } = .next t ∧ t.rk ≠ katRoundKeys) ∧
    ∃ t, step (pending 0x00002001 { State.reset with rk := katRoundKeys }) = .next t ∧ t.rk ≠ katRoundKeys := by
  refine ⟨⟨_, rfl⟩, ⟨_, rfl, ?_⟩, ⟨_, rfl, ?_⟩⟩
  · intro h
    exact absurd (congrArg (fun v : Vector Block 10 => v[0][0]) h) (by decide)
  · intro h
    exact absurd (congrArg (fun v : Vector Block 10 => v[0][0]) h) (by decide)

/-- InstanceFlagsChangeOnlyByTheirCommands: a step for each change of a flag, PART at both ends of its range. -/
theorem witness_flags_change :
    (∃ t, step (pending 0x00002001 State.reset) = .next t ∧ State.reset.keyed = false ∧ t.keyed = true) ∧
    (∃ t, step (pending 0x00001004 keyedState) = .next t ∧ keyedState.mode = false ∧ t.mode = true) ∧
    (∃ t, step (pending 0x00002001 modedState) = .next t ∧ modedState.mode = true ∧ t.mode = false ∧
      modedState.keyed = true) ∧
    (∃ t, step (pending 0x00001004 { modedState with part := true }) = .next t ∧ t.part = false) ∧
    (∃ t, step (pending 0x00000105 modedState) = .next t ∧ modedState.part = false ∧ t.part = true) ∧
    (∃ t, step (pending 0x00000F06 modedState) = .next t ∧ modedState.part = false ∧ t.part = true) ∧
    ∀ es, (pending 0x00000F06 modedState).events ≠ .resetAssert :: es :=
  ⟨⟨_, rfl, rfl, rfl⟩, ⟨_, rfl, rfl, rfl⟩, ⟨_, rfl, rfl, rfl, rfl⟩, ⟨_, rfl, rfl⟩, ⟨_, rfl, rfl, rfl⟩, ⟨_, rfl, rfl, rfl⟩,
    fun _ => (List.cons_ne_nil _ _).symm⟩

/-- Inv holds of a core with an ended stream and a pending command, so its four clauses have something to say. -/
theorem witness_inv : Inv (pending 0x00001005 { modedState with part := true }) where
  mode_keyed _ := rfl
  part_mode _ := rfl
  busy_iff_pending := ⟨fun h => Bool.noConfusion h, fun h => absurd h (Option.some_ne_none _)⟩
  keyed_schedule _ := by
    change schedule zeroKey = schedule (boundKey (schedule zeroKey))
    rw [boundKey_schedule]

/-- Settled holds of the same core, and of one held in reset. -/
theorem witness_settled : Settled (pending 0x00001005 modedState) ∧ Settled (assertReset modedState) :=
  ⟨⟨by decide, fun h => Bool.noConfusion h, fun h => Bool.noConfusion h, fun h => Bool.noConfusion h, fun h => Bool.noConfusion h⟩,
    ⟨by decide, fun _ => rfl, fun _ => rfl, fun _ => rfl, fun _ => rfl⟩⟩

/-- StepKeepsInvariants and StepKeepsSettled: such a core takes a step. -/
theorem witness_step_keeps : ∃ t, step (pending 0x00001005 { modedState with part := true }) = .next t ∧ t.err = 0 := ⟨_, rfl, rfl⟩

/-- ReachableStatesSatisfyInvariants: a run from reset that ends in a state with an error reported. -/
theorem witness_reachable : ∃ t, run 3 { State.reset with events := [wr 0x000 0x00001002, .poll] } = .next t ∧ t.err = 5 :=
  ⟨_, rfl, rfl⟩

/-- ReservedAndReadOnlyOffsets and OverrunFollowsDroppedWrites: offsets at the ends of their ranges. -/
theorem witness_offsets :
    (∀ off ∈ [0x00C, 0x01C, 0x070, 0x0FC], off % 4 = 0 ∧ (0x00C ≤ off ∧ off ≤ 0x01C ∨ 0x070 ≤ off ∧ off ≤ 0x0FC)) ∧
    (∀ off ∈ [0x050, 0x06C], 0x050 ≤ off ∧ off ≤ 0x06C ∧ off % 4 = 0) ∧
    (∀ off ∈ [0x000, 0x004, 0x01C, 0x020, 0x04C, 0x050, 0x0FC], off < 0x100 ∧ off % 4 = 0) := by decide

/-- DataWindowWrites: a busy and an idle core, and bytes in and out of the word written. -/
theorem witness_data_writes : (pending 0x00001002 State.reset).busy = true ∧ State.reset.busy = false ∧
    (7 : Nat) / 4 ≠ (7 : Fin 8).val ∧ (31 : Nat) / 4 = (7 : Fin 8).val ∧ (15 : Nat) / 4 ≠ (0 : Fin 4).val := by decide

/-- OverrunFollowsDroppedWrites and CommandWriteIsAcceptedOrDropped: one address of each clause. -/
theorem witness_overrun :
    (memWrite 0x000 0 (pending 0x00001002 State.reset)).ovr = true ∧ (memWrite 0x020 0 (pending 0x00001002 State.reset)).ovr = true ∧
    (memWrite 0x04C 0 (pending 0x00001002 State.reset)).ovr = true ∧ (memWrite 0x01C 0 (pending 0x00001002 State.reset)).ovr = false ∧
    (memWrite 0x050 0 (pending 0x00001002 State.reset)).ovr = false ∧
    (memWrite 0x004 0x10 { pending 0x00001002 State.reset with ovr := true }).ovr = false := by decide

/-- HostAccessFrame: a read and a write carried out, and one at a host bus address, whatever BASE is. -/
theorem witness_host_access :
    (∃ t, hostAccess (.read 32 0x004) modedState = .next t) ∧
    (∃ t, hostAccess (.write 32 0x000 0x00001003) (pending 0x00001002 modedState) = .next t) ∧
    ∃ t, busAccess (.read 32 Config.base) modedState = .next t := by
  refine ⟨⟨_, rfl⟩, ⟨_, rfl⟩, ?_⟩
  rcases windowOffset_cases Config.base with ⟨_, _, h⟩ | ⟨h, _⟩
  · refine ⟨record (.value 0 0) modedState, ?_⟩
    simp only [busAccess, Access.offset, h, Nat.sub_self, Access.at]
    rfl
  · exact absurd ⟨Nat.le_refl _, Nat.lt_add_of_pos_right (by decide)⟩ h

/-- MalformedAccessesAreRefused: V37's three accesses, the last byte of the window, and the last offset carried out. -/
theorem witness_malformed :
    (∀ a ∈ [Access.read 8 0x050, .write 32 0x042 1, .write 16 0x000 1, .read 32 0x0FF], a.offset < 0x100 ∧ (a.width ≠ 32 ∨ a.offset % 4 ≠ 0)) ∧
    0x0FC < 0x100 ∧ 0x0FC % 4 = 0 ∧ State.reset.resetLine = false := by decide

/-- WindowLiesAtBase: the window's first and last bytes, and an address just past it. -/
theorem witness_window : 0 < 0x100 ∧ 0xFF < 0x100 ∧ windowOffset Config.base = some 0 ∧
    (Config.base + 0x100 < Config.base ∨ Config.base + 0x100 ≤ (Access.read 32 (Config.base + 0x100)).offset) := by
  refine ⟨by decide, by decide, ?_, .inr (Nat.le_refl _)⟩
  rcases windowOffset_cases Config.base with ⟨_, _, h⟩ | ⟨h, _⟩
  · rw [h, Nat.sub_self]
  · exact absurd ⟨Nat.le_refl _, Nat.lt_add_of_pos_right (by decide)⟩ h

/-- HiddenStateIsNotRead: without an instance, KEY_INIT sets KEYED and ENC_BLOCK leaves it 0. -/
theorem witness_hidden : State.reset.keyed = false ∧
    (∃ t, exec (.keyInit 32) State.reset = .next t ∧ t.keyed = true) ∧
    ∃ t, exec (.encBlock 16) State.reset = .next t ∧ t.keyed = false := ⟨rfl, ⟨_, rfl, rfl⟩, ⟨_, rfl, rfl⟩⟩

/-- ResetAbandonsThePendingCommand: reset comes while a command is pending. -/
theorem witness_reset : (setEvents [.resetAssert] (pending 0x00002001 modedState)).events = .resetAssert :: [] ∧
    (Access.write 32 0x0FF 0).offset < 0x100 := ⟨rfl, by decide⟩

/-- FeistelIterationIsInvertible: the outcome of an iteration. -/
theorem witness_feistel : feistel (vec 1) (zeroBlock, zeroBlock) = (xorBlock (lsx (vec 1) zeroBlock) zeroBlock, zeroBlock) := rfl

/-- LanesAndDiffusion: two blocks that agree in one byte only, and a change of one byte. -/
theorem witness_lanes : zeroBlock[15] = (hexBlock 0xffffffffffffffffffffffffffffff00)[15] ∧ (1 : Byte) ≠ 0 := by decide

/-- PartialChunkReusesKeystream, ChunkOutputDependsOnItsBytesOnly, BlockCommandLeavesStreamAlone, StreamCallsKeepLength: chunks at
the ends of their ranges on a running stream. -/
theorem witness_chunks : Instr.cfbEnc ∈ [Instr.cfbEnc, Instr.cfbDec] ∧ Instr.cfbDec ∈ [Instr.cfbEnc, Instr.cfbDec] ∧
    Instr.encBlock ∈ [Instr.encBlock, Instr.decBlock] ∧ Instr.decBlock ∈ [Instr.encBlock, Instr.decBlock] ∧
    modedState.keyed = true ∧ modedState.mode = true ∧ modedState.busy = false ∧ modedState.resetLine = false ∧
    (1 ≤ 1 ∧ 1 ≤ 15) ∧ (1 ≤ 15 ∧ 15 ≤ 15) ∧ 16 ≤ 16 ∧ keyedState.mode = false ∧ keyedState.keyed = true ∧
    ([0] : List Byte) ≠ [] := by
  exact ⟨by simp, by simp, by simp, by simp, rfl, rfl, rfl, rfl, by decide, by decide, by decide, rfl, rfl, by decide⟩

/-- ChunkOutputDependsOnItsBytesOnly: two states that agree on FR, RK and the first 15 bytes of DIN, and differ in the last. -/
theorem witness_same_chunk : modedState.rk = { modedState with din := vec 1 }.rk ∧ modedState.fr = { modedState with din := vec 1 }.fr ∧
    (∀ i : Fin 16, i.val < 15 → modedState.din[i] = { modedState with din := vec 1 }.din[i]) ∧
    modedState.din ≠ { modedState with din := vec 1 }.din := by
  exact ⟨rfl, rfl, by decide, by decide⟩

/-- SavedFeedbackResumesStream: a running stream within the invariants. -/
theorem witness_saved : Inv modedState ∧ modedState.keyed = true ∧ modedState.mode = true ∧ modedState.part = false :=
  ⟨⟨fun _ => rfl, fun h => Bool.noConfusion h, ⟨fun _ => rfl, fun _ => rfl⟩, fun _ => by
    change schedule zeroKey = schedule (boundKey (schedule zeroKey))
    rw [boundKey_schedule]⟩, rfl, rfl, rfl⟩

/-- StreamRoundTrip, StreamSplitsAtBlocks and DecryptionSelfSynchronises: an idle core and texts of the lengths asked for. -/
theorem witness_streams : keyedState.busy = false ∧ keyedState.resetLine = false ∧ keyedState.keyed = true ∧
    (List.replicate 32 (0 : Byte)).length % 16 = 0 ∧ ([] : List Byte).length % 16 = 0 ∧
    plainBlock.toList.length = 16 ∧ ivBlock.toList.length = 16 ∧ modedState.mode = true ∧
    (0 < (List.replicate 32 (0 : Byte)).length ∨ (List.replicate 32 (0 : Byte)).length + 32 ≤ 0) ∧
    (64 < (List.replicate 32 (0 : Byte)).length ∨ (List.replicate 32 (0 : Byte)).length + 32 ≤ 64) := by
  exact ⟨rfl, rfl, rfl, rfl, rfl, rfl, rfl, rfl, .inl (by decide), .inr (by decide)⟩

/-- Log 16: on a core held in reset a call of one byte fails, and a call of none answers none. -/
theorem test_call_in_reset : (callEncrypt [0] (assertReset modedState)).1 = none ∧
    (callDecrypt [] (assertReset modedState)).1 = some [] := ⟨rfl, rfl⟩

/-- LatencyDoesNotChangeResults: dropped writes, a read and a refused access between accept and completion. -/
theorem witness_latency : (pending 0x00001005 modedState).busy = true ∧ (pending 0x00001005 modedState).resetLine = false ∧
    (pending 0x00001005 modedState).pend = some 0x00001005 ∧
    ∀ a ∈ [Access.write 32 0x000 0x00001003, .write 32 0x040 1, .read 32 0x050, .read 8 0x0FF], a.offset < 0x100 :=
  ⟨rfl, rfl, rfl, by decide⟩

/-- BothOutcomesOfUnpolledWrite: a latency for each outcome. -/
theorem witness_outcomes : (Latencies.mk 32 1 1 1).legal = true ∧ (Latencies.mk 32 1 1 1).block = 1 ∧
    (Latencies.mk 32 2 1 1).legal = true ∧ 1 < (Latencies.mk 32 2 1 1).block ∧ keyedState.ovr = false := by
  exact ⟨by decide, by decide, by decide, by decide, rfl⟩

/-- EveryRunEnds: a core within both invariants that has a command pending and accesses, at window offsets and a bus address, to come. -/
theorem witness_run_ends : ∀ es, es = [wr 0x000 0x00001005, .poll, rd 0x0FC, .bus (.read 32 Config.base), .core] →
    Inv (setEvents es (pending 0x00001005 modedState)) ∧ Settled (setEvents es (pending 0x00001005 modedState)) ∧
    ∀ e ∈ (setEvents es (pending 0x00001005 modedState)).events, e.inWindow = true := by
  rintro es rfl
  refine ⟨⟨fun _ => rfl, fun h => Bool.noConfusion h, ⟨fun h => Bool.noConfusion h, fun h => absurd h (Option.some_ne_none _)⟩, fun _ => ?_⟩,
    ⟨by decide, fun h => Bool.noConfusion h, fun h => Bool.noConfusion h, fun h => Bool.noConfusion h, fun h => Bool.noConfusion h⟩, ?_⟩
  · change schedule zeroKey = schedule (boundKey (schedule zeroKey))
    rw [boundKey_schedule]
  · intro e he
    have h := witness_window.2.2.1
    simp only [setEvents, List.mem_cons, List.not_mem_nil, or_false] at he
    rcases he with rfl | rfl | rfl | rfl | rfl
    · rfl
    · rfl
    · rfl
    · simp only [Event.inWindow, Access.offset, h]; rfl
    · rfl

/-- PseudoInstructionsExpand: an idle core, and m on both sides of 16. -/
theorem witness_pseudo : State.reset.busy = false ∧ State.reset.resetLine = false ∧ 0 ≤ 16 ∧ 16 ≤ 16 ∧ 16 < 17 := by
  exact ⟨rfl, rfl, by decide⟩

end Sys2Proof.Machine
end

section
/-! SUPPORT. What a command and a completion can have done, by the state they end in. -/

namespace Sys2Proof.Machine

/-- A chunk of n bytes moves FR only when it is full and sets PART only when it is not (43_cfb_mode.md R122–R124). -/
theorem advanceMode_eq (n : Nat) (ct : Block) (s : State) :
    advanceMode n ct s =
      { s with fr := if n = 16 then ct else s.fr, part := s.part || decide (1 ≤ n ∧ n ≠ 16) } := by
  rcases advanceMode_cases n ct s with ⟨rfl, h⟩ | ⟨hn, h1, h⟩ | ⟨rfl, h⟩
  · simp [h, setFr]
  · simp [h, hn, h1, setPart]
  · simp [h]

/-- Everything a command that ends in `t` can have done: raise an error, or one of its writes and success. -/
inductive CommandEffect (s : State) : Instr → State → Prop
  | raised (i : Instr) (c : BitVec 4) (hc : 1 ≤ c.toNat ∧ c.toNat ≤ 7) : CommandEffect s i (finish c s)
  | keyBound : CommandEffect s (.keyInit 32) (finish 0 (bindKey (schedule s.keybuf) s))
  | blockOut (i : Instr) (out : Block) (hi : i = .encBlock 16 ∨ i = .decBlock 16) (hk : s.keyed = true) :
      CommandEffect s i (finish 0 (setDout out s))
  | modeStarted (hk : s.keyed = true) : CommandEffect s (.cfbInit 16) (finish 0 (startMode s.din s))
  | chunkOut (i : Instr) (n : Nat) (ct out : Block) (hi : i = .cfbEnc n ∨ i = .cfbDec n) (hn : n ≤ 16)
      (hk : s.keyed = true) (hm : s.mode = true) :
      CommandEffect s i (finish 0 (advanceMode n ct (setDout out s)))

/-- The commands are tied to their effects: whatever `exec` answers is one of them. -/
theorem exec_effect {i : Instr} {s t : State} (h : exec i s = .next t) : CommandEffect s i t := by
  cases i with
  | keyInit n =>
    rcases execKeyInit_cases n s with ⟨_, he⟩ | ⟨rfl, he⟩ <;> cases he.symm.trans h
    · exact .raised _ 1 (by decide)
    · exact .keyBound
  | encBlock n =>
    rcases execEncBlock_cases n s with ⟨_, he⟩ | ⟨_, _, he⟩ | ⟨rfl, hk, he⟩ <;> cases he.symm.trans h
    · exact .raised _ 2 (by decide)
    · exact .raised _ 5 (by decide)
    · exact .blockOut _ _ (.inl rfl) hk
  | decBlock n =>
    rcases execDecBlock_cases n s with ⟨_, he⟩ | ⟨_, _, he⟩ | ⟨rfl, hk, he⟩ <;> cases he.symm.trans h
    · exact .raised _ 2 (by decide)
    · exact .raised _ 5 (by decide)
    · exact .blockOut _ _ (.inr rfl) hk
  | cfbInit n =>
    rcases execCfbInit_cases n s with ⟨_, he⟩ | ⟨_, _, he⟩ | ⟨rfl, hk, he⟩ <;> cases he.symm.trans h
    · exact .raised _ 3 (by decide)
    · exact .raised _ 5 (by decide)
    · exact .modeStarted hk
  | cfbEnc n =>
    rcases execCfbEnc_cases n s with ⟨_, he⟩ | ⟨_, _, he⟩ | ⟨_, _, _, he⟩ | ⟨hn, hk, hm, he⟩ <;>
      cases he.symm.trans h
    · exact .raised _ 7 (by decide)
    · exact .raised _ 5 (by decide)
    · exact .raised _ 6 (by decide)
    · exact .chunkOut _ n _ _ (.inl rfl) hn hk hm
  | cfbDec n =>
    rcases execCfbDec_cases n s with ⟨_, he⟩ | ⟨_, _, he⟩ | ⟨_, _, _, he⟩ | ⟨hn, hk, hm, he⟩ <;>
      cases he.symm.trans h
    · exact .raised _ 7 (by decide)
    · exact .raised _ 5 (by decide)
    · exact .raised _ 6 (by decide)
    · exact .chunkOut _ n _ _ (.inr rfl) hn hk hm

/-- Everything a completion that does not stop can have done, with the word it decoded. -/
theorem complete_effect {s t : State} (h : complete s = .next t) :
    ∃ w, s.pend = some w ∧
      ((∃ i, decode w = .instr i ∧ CommandEffect s i t) ∨ (∃ y, decode w = .illegal y ∧ t = finish 4 s)) := by
  rcases complete_cases s with ⟨_, hc⟩ | ⟨w, i, hp, hd, hc⟩ | ⟨w, y, hp, hd, hc⟩ <;> rw [hc] at h
  · cases h
  · exact ⟨w, hp, .inl ⟨i, hd, exec_effect h⟩⟩
  · cases h
    exact ⟨w, hp, .inr ⟨y, hd, rfl⟩⟩

/-- What no command writes (10_state.md R41), and that every command ends with nothing pending (R38). -/
structure CommandKeeps (s t : State) : Prop where
  keybuf : t.keybuf = s.keybuf
  din : t.din = s.din
  ovr : t.ovr = s.ovr
  resetLine : t.resetLine = s.resetLine
  events : t.events = s.events
  seen : t.seen = s.seen
  pend : t.pend = none
  busy : t.busy = false

theorem CommandEffect.keeps {i : Instr} {s t : State} (h : CommandEffect s i t) : CommandKeeps s t := by
  cases h with
  | raised | keyBound | blockOut | modeStarted => constructor <;> rfl
  | chunkOut _ n ct out => rw [advanceMode_eq]; constructor <;> rfl

/-- A chunk of n bytes keeps RK, KEYED and MODE; FR moves only at n = 16, PART only at n = 1..15. -/
theorem chunk_keeps (n : Nat) (ct : Block) (s : State) (hn : n ≤ 16) :
    (advanceMode n ct s).rk = s.rk ∧ (advanceMode n ct s).keyed = s.keyed ∧ (advanceMode n ct s).mode = s.mode ∧
      (n ≠ 16 → (advanceMode n ct s).fr = s.fr) ∧ (n = 0 ∨ 16 ≤ n → (advanceMode n ct s).part = s.part) := by
  rw [advanceMode_eq]
  refine ⟨rfl, rfl, rfl, fun h => if_neg h, fun h => ?_⟩
  have hno : ¬(1 ≤ n ∧ n ≠ 16) := by omega
  simp [hno]

end Sys2Proof.Machine
end

section
/-! SUPPORT. What a host access and a step can have done, by the state they end in. -/

namespace Sys2Proof.Machine

/-- A host access that does not stop is refused or carried out. -/
theorem hostAccess_next {a : Access} {s t : State} (h : hostAccess a s = .next t) :
    a.offset < 0x100 ∧
      (((a.malformed = true ∨ s.resetLine = true) ∧ t = record (.refused a) s) ∨
        (a.malformed = false ∧ s.resetLine = false ∧ t = permitted a s)) := by
  rcases hostAccess_cases a s with ⟨_, hc⟩ | ⟨ho, hm, hc⟩ | ⟨ho, hm, hr, hc⟩ <;> cases hc.symm.trans h
  · exact ⟨ho, .inl ⟨hm, rfl⟩⟩
  · exact ⟨ho, .inr ⟨hm, hr, rfl⟩⟩

/-- Everything a step that does not stop can have done. A completion leaves the list as it is when no event is left and under a
poll, which stays next; at the core's turn the turn is taken off. An access may have been made at an offset, at a bus address
or by a poll. -/
inductive StepEffect (s t : State) : Prop
  | completes (es : List Event) (hb : s.busy = true) (hr : s.resetLine = false)
      (hes : es = s.events ∨ s.events = .core :: es) (h : complete (setEvents es s) = .next t)
  | idles (hb : s.busy = false ∨ s.resetLine = true) (ht : t = setEvents s.events.tail s)
  | accessed (a : Access) (h : hostAccess a (setEvents s.events.tail s) = .next t)
  | resetAsserted (es : List Event) (hes : s.events = .resetAssert :: es) (ht : t = assertReset (setEvents es s))
  | resetReleased (es : List Event) (hes : s.events = .resetRelease :: es) (ht : t = releaseReset (setEvents es s))

/-- The core's turn, with the turn itself taken off the list or no event left. -/
theorem coreTurn_effect {s t : State} {es : List Event} (hes : es = s.events ∨ s.events = .core :: es)
    (htail : es = s.events.tail) (h : coreTurn (setEvents es s) = .next t) : StepEffect s t := by
  rcases coreTurn_cases (setEvents es s) with ⟨hb, hr, hc⟩ | ⟨hb, hc⟩ <;> rw [hc] at h
  · exact .completes es hb hr hes h
  · cases h
    exact .idles hb (htail ▸ rfl)

theorem hostPoll_effect {s t : State} {es : List Event} (hes : s.events = .poll :: es)
    (h : hostPoll (setEvents es s) = .next t) : StepEffect s t := by
  rcases hostPoll_cases (setEvents es s) with ⟨hb, hr, hc⟩ | ⟨_, hc⟩ <;> rw [hc] at h
  · exact .completes (.poll :: es) hb hr (.inl hes.symm) h
  · exact .accessed _ (by rw [hes]; exact h)

theorem step_effect {s t : State} (h : step s = .next t) : StepEffect s t := by
  rcases step_cases s with ⟨he, hs⟩ | ⟨e, es, he, hs⟩ <;> rw [hs] at h
  · exact coreTurn_effect (es := s.events) (.inl rfl) (by rw [he]; rfl) h
  · cases e with
    | access a => exact .accessed a (by rw [he]; exact h)
    | bus a =>
      rcases busAccess_cases a (setEvents es s) with ⟨off, _, hc⟩ | ⟨_, hc⟩
      · exact .accessed (a.at off) (by rw [he]; exact hc.symm.trans h)
      · cases hc.symm.trans h
    | poll => exact hostPoll_effect he h
    | core => exact coreTurn_effect (.inr he) (by rw [he]; rfl) h
    | resetAssert => cases h; exact .resetAsserted es he rfl
    | resetRelease => cases h; exact .resetReleased es he rfl

end Sys2Proof.Machine
end

section
/-! SUPPORT. Which step the next event makes, and the completion of a pending word. -/

namespace Sys2Proof.Machine

theorem step_of_no_event {s : State} (h : s.events = []) : step s = coreTurn s := by
  rw [step, advance, h]

theorem step_of_event {s : State} {e : Event} {es : List Event} (h : s.events = e :: es) :
    step s = handleEvent e (setEvents es s) := by
  rw [step, advance, h]

theorem coreTurn_busy {s : State} (hb : s.busy = true) (hr : s.resetLine = false) : coreTurn s = complete s := by
  simp [coreTurn, hb, hr]

theorem hostPoll_busy {s : State} (hb : s.busy = true) (hr : s.resetLine = false) :
    hostPoll s = complete (setEvents (.poll :: s.events) s) := by
  simp [hostPoll, hb, hr]

/-- The steps at which a busy core completes: with no event left, under a poll, which stays next, and at its turn. -/
theorem step_completes {s : State} (hb : s.busy = true) (hr : s.resetLine = false) :
    (s.events = [] → step s = complete s) ∧ (∀ es, s.events = .poll :: es → step s = complete s) ∧
    ∀ es, s.events = .core :: es → step s = complete (setEvents es s) := by
  refine ⟨fun h => ?_, fun es h => ?_, fun es h => ?_⟩
  · rw [step_of_no_event h, coreTurn_busy hb hr]
  · rw [step_of_event h, handleEvent, hostPoll_busy (s := setEvents es s) hb hr, setEvents_events, ← h]
    rfl
  · rw [step_of_event h, handleEvent, coreTurn_busy (s := setEvents es s) hb hr]

theorem complete_instr {s : State} {w : Word} {i : Instr} (hp : s.pend = some w) (hd : decode w = .instr i) :
    complete s = exec i s := by
  simp only [complete, hp, hd]

theorem complete_illegal {s : State} {w : Word} {y : Illegal} (hp : s.pend = some w) (hd : decode w = .illegal y) :
    complete s = .next (finish 4 s) := by
  simp only [complete, hp, hd, raiseError_eq, ErrCode.code]

theorem decode_of_decodeTableWord {n w : Nat} {i : Instr} (h : decodeTableWord n w = some i) :
    decode (tableWord n w) = .instr i := by
  unfold decodeTableWord at h
  split at h <;> cases h
  assumption

end Sys2Proof.Machine
end

section
/-! SUPPORT. What host accesses write and what they leave (10_state.md R16; 20_memory.md R54). -/

namespace Sys2Proof.Machine

/-- The elements that no host access writes (10_state.md R16, "written by"), with the model's own two that it leaves. -/
structure HostKeeps (s t : State) : Prop where
  dout : t.dout = s.dout
  fr : t.fr = s.fr
  rk : t.rk = s.rk
  keyed : t.keyed = s.keyed
  mode : t.mode = s.mode
  part : t.part = s.part
  err : t.err = s.err
  resetLine : t.resetLine = s.resetLine
  events : t.events = s.events

theorem memWrite_hostKeeps (off : Nat) (v : Word) (s : State) : HostKeeps s (memWrite off v s) := by
  rcases memWrite_cases off v s with h | ⟨_, h⟩ | ⟨_, h⟩ | ⟨_, _, h⟩ | ⟨_, _, _, h⟩ | ⟨_, _, _, h⟩ <;>
    rw [h] <;> constructor <;> rfl

theorem record_hostKeeps (r : Response) (s : State) : HostKeeps s (record r s) := by
  constructor <;> rfl

theorem permitted_hostKeeps (a : Access) (s : State) : HostKeeps s (permitted a s) := by
  cases a with
  | read w off => exact record_hostKeeps _ s
  | write w off v => exact memWrite_hostKeeps off v s

theorem hostAccess_hostKeeps {a : Access} {s t : State} (h : hostAccess a s = .next t) : HostKeeps s t := by
  obtain ⟨_, ⟨_, rfl⟩ | ⟨_, _, rfl⟩⟩ := hostAccess_next h
  · exact record_hostKeeps _ s
  · exact permitted_hostKeeps a s

/-- A read, permitted or refused, only adds to the host's record. -/
theorem hostAccess_read {a : Access} {s t : State} (hr : a.isWrite = false) (h : hostAccess a s = .next t) :
    t = { s with seen := t.seen } := by
  obtain ⟨_, ⟨_, rfl⟩ | ⟨_, _, rfl⟩⟩ := hostAccess_next h
  · rfl
  · cases a with
    | read w off => rfl
    | write w off v => cases hr

/-- No write replaces the pending command of a busy core (10_state.md R37). -/
theorem memWrite_pend_of_busy (off : Nat) (v : Word) {s : State} (hb : s.busy = true) :
    (memWrite off v s).pend = s.pend := by
  rcases memWrite_cases off v s with h | ⟨_, h⟩ | ⟨_, h⟩ | ⟨hi, _⟩ | ⟨_, _, _, h⟩ | ⟨_, _, _, h⟩
  case inr.inr.inr.inl => cases hb.symm.trans hi
  all_goals simp [h]

theorem hostAccess_pend_of_busy {a : Access} {s t : State} (hb : s.busy = true) (h : hostAccess a s = .next t) :
    t.pend = s.pend := by
  obtain ⟨_, ⟨_, rfl⟩ | ⟨_, _, rfl⟩⟩ := hostAccess_next h
  · rfl
  · cases a with
    | read w off => rfl
    | write w off v => exact memWrite_pend_of_busy off v hb

@[simp] theorem Access.isWrite_at (a : Access) (off : Nat) : (a.at off).isWrite = a.isWrite := by
  cases a <;> rfl

/-- An access at a bus address that does not stop is the same kind of access at a window offset. -/
theorem busAccess_next {a : Access} {s t : State} (h : busAccess a s = .next t) :
    ∃ b : Access, b.isWrite = a.isWrite ∧ hostAccess b s = .next t := by
  rcases busAccess_cases a s with ⟨off, _, hc⟩ | ⟨_, hc⟩
  · exact ⟨a.at off, a.isWrite_at off, hc.symm.trans h⟩
  · cases hc.symm.trans h

end Sys2Proof.Machine
end

section
/-! SUPPORT. The STATUS word, the registers of the window and OVR (10_state.md R27–R37). -/

namespace Sys2Proof.Machine

theorem memRead_status (s : State) : memRead 0x004 s = statusWord s := rfl

/-- STATUS is the or of its shifted fields (10_state.md R32). -/
theorem statusWord_eq_or (s : State) :
    statusWord s = (s.err.setWidth 32 <<< 8) ||| ((BitVec.ofBool s.ovr).setWidth 32 <<< 4) |||
      ((BitVec.ofBool s.part).setWidth 32 <<< 3) ||| ((BitVec.ofBool s.mode).setWidth 32 <<< 2) |||
      ((BitVec.ofBool s.keyed).setWidth 32 <<< 1) ||| (BitVec.ofBool s.busy).setWidth 32 := by
  rw [← BitVec.setWidth_eq (statusWord s)]
  change BitVec.setWidth (w := 20 + 4 + 3 + 1 + 1 + 1 + 1 + 1) 32 _ = _
  rw [statusWord]
  simp only [flagBit, BitVec.setWidth_append_eq_shiftLeft_setWidth_or, BitVec.shiftLeft_or_distrib,
    ← BitVec.shiftLeft_add]
  simp

/-- The reserved bits 7:5 of STATUS. -/
theorem statusWord_reserved_low (s : State) : (statusWord s).extractLsb' 5 3 = 0 := by
  change BitVec.extractLsb' (n := 20 + 4 + 3 + 1 + 1 + 1 + 1 + 1) 5 3 _ = 0
  rw [statusWord]
  simp only [BitVec.extractLsb'_append_eq_of_le, Nat.reduceLeDiff, Nat.reduceSub]
  exact BitVec.extractLsb'_append_eq_right

/-- The reserved bits 31:12 of STATUS. -/
theorem statusWord_reserved_high (s : State) : (statusWord s).extractLsb' 12 20 = 0 := by
  change BitVec.extractLsb' (n := 20 + 4 + 3 + 1 + 1 + 1 + 1 + 1) 12 20 _ = 0
  rw [statusWord]
  simp only [BitVec.extractLsb'_append_eq_of_le, Nat.reduceLeDiff, Nat.reduceSub]
  exact BitVec.extractLsb'_eq_self

/-- Whether a write to a register is dropped while BUSY = 1 (10_state.md R27). -/
def Reg.droppedWhileBusy : Reg → Bool
  | .cmd | .key _ | .din _ => true
  | .status | .info | .dout _ | .fr _ | .reserved => false

theorem writeReg_ovr (r : Reg) (v : Word) (s : State) :
    (writeReg r v s).ovr =
      if r = .status then s.ovr && !v.getLsbD 4 else if s.busy = true ∧ r.droppedWhileBusy = true then true else s.ovr := by
  cases r <;> cases hb : s.busy <;> simp [writeReg, accept, writeKey, writeDin, Reg.droppedWhileBusy, hb]

theorem regOf_eq_status (off : Nat) (ha : off % 4 = 0) : regOf off = .status ↔ off = 0x004 := by
  unfold regOf
  dsimp only
  split_ifs <;> simp <;> omega

theorem regOf_droppedWhileBusy (off : Nat) (ha : off % 4 = 0) :
    (regOf off).droppedWhileBusy = true ↔ off = 0x000 ∨ 0x020 ≤ off ∧ off < 0x050 := by
  unfold regOf
  dsimp only
  split_ifs <;> simp [Reg.droppedWhileBusy] <;> omega

theorem memRead_reserved {off : Nat} (h : regOf off = .reserved) (s : State) : memRead off s = 0 := by
  rw [memRead, h, readReg]

theorem memRead_info (s : State) : memRead 0x008 s = 0x010A2010 :=
  show infoWord = 0x010A2010 by decide

/-- Reserved offsets, INFO, DOUT and FR ignore writes. -/
theorem memWrite_ignored {off : Nat} (v : Word) (s : State)
    (h : regOf off = .reserved ∨ regOf off = .info ∨ (∃ k, regOf off = .dout k) ∨ ∃ k, regOf off = .fr k) :
    memWrite off v s = s := by
  rcases h with h | h | ⟨_, h⟩ | ⟨_, h⟩ <;> rw [memWrite, h, writeReg]

theorem memRead_hides (off : Nat) (s : State) (kb : Key) (r : Vector Block 10) (p : Option Word) :
    memRead off { s with keybuf := kb, rk := r, pend := p } = memRead off s := by
  unfold memRead
  cases regOf off <;> rfl

end Sys2Proof.Machine
end

section
/-! SUPPORT. The word of a command is its encoding (30_encoding.md R64–R69). -/

namespace Sys2Proof.Machine

/-- A word is its four fields, RSV1 first (30_encoding.md R64). -/
theorem append_fields (w : Word) : fieldRsv1 w ++ fieldLen w ++ fieldRsv0 w ++ fieldOp w = w := by
  rw [fieldRsv1, fieldLen, fieldRsv0, fieldOp,
    BitVec.extractLsb'_append_extractLsb'_eq_extractLsb' (show 14 = 8 + 6 from rfl),
    BitVec.extractLsb'_append_extractLsb'_eq_extractLsb' (show 8 = 4 + 4 from rfl),
    BitVec.extractLsb'_append_extractLsb'_eq_extractLsb' (show 4 = 0 + 4 from rfl)]
  exact BitVec.extractLsb'_eq_self

/-- The fields of a word that decodes to a command (30_encoding.md R64–R69). -/
theorem decode_instr_fields {w : Word} {i : Instr} (h : decode w = .instr i) :
    fieldRsv1 w = 0 ∧ fieldRsv0 w = 0 ∧ fieldOp w = i.op ∧ (fieldLen w).toNat = i.len := by
  unfold decode at h
  split at h
  case isTrue => cases h
  case isFalse hr =>
    obtain ⟨h1, h0⟩ : fieldRsv1 w = 0 ∧ fieldRsv0 w = 0 := by simpa using hr
    split at h <;> cases h
    all_goals exact ⟨h1, h0, BitVec.eq_of_toNat_eq ‹_›, rfl⟩

/-- Every command has one word. -/
theorem eq_encode_of_decode {w : Word} {i : Instr} (h : decode w = .instr i) : w = encode i := by
  obtain ⟨h1, h0, hop, hlen⟩ := decode_instr_fields h
  rw [← append_fields w, encode, h1, h0, hop, ← hlen, BitVec.ofNat_toNat, BitVec.setWidth_eq]
  rfl

end Sys2Proof.Machine
end

section
/-! PROOF. The four invariants of 10_state.md R29 over every step and every run. -/

namespace Sys2Proof.Machine

/-- The invariants speak of RK, KEYED, MODE, PART, BUSY and PEND alone. -/
theorem Inv.of_same_cipher {s t : State} (hs : Inv s) (hrk : t.rk = s.rk) (hkeyed : t.keyed = s.keyed)
    (hmode : t.mode = s.mode) (hpart : t.part = s.part) (hbusy : t.busy = false ↔ t.pend = none) : Inv t where
  mode_keyed := by rw [hmode, hkeyed]; exact hs.mode_keyed
  part_mode := by rw [hpart, hmode]; exact hs.part_mode
  busy_iff_pending := hbusy
  keyed_schedule := by rw [hkeyed, hrk]; exact hs.keyed_schedule

theorem Inv.setEvents {s : State} (hs : Inv s) (es : List Event) : Inv (setEvents es s) :=
  hs.of_same_cipher rfl rfl rfl rfl hs.busy_iff_pending

theorem inv_reset : Inv State.reset where
  mode_keyed h := by cases h
  part_mode h := by cases h
  busy_iff_pending := ⟨fun _ => rfl, fun _ => rfl⟩
  keyed_schedule h := by cases h

theorem inv_assertReset (s : State) : Inv (assertReset s) :=
  inv_reset.of_same_cipher rfl rfl rfl rfl inv_reset.busy_iff_pending

/-- A completion leaves nothing pending, so BUSY and PEND agree after it. -/
theorem Inv.finish {s : State} (c : BitVec 4) (hs : Inv s) : Inv (finish c s) :=
  hs.of_same_cipher rfl rfl rfl rfl ⟨fun _ => rfl, fun _ => rfl⟩

/-- A newly bound key ends the stream, and its round keys are the schedule of the key bound in them. -/
theorem inv_bindKey_schedule (k : Key) {s : State} (hs : Inv s) : Inv (bindKey (schedule k) s) where
  mode_keyed _ := rfl
  part_mode h := by cases h
  busy_iff_pending := hs.busy_iff_pending
  keyed_schedule _ := by rw [bindKey_rk, boundKey_schedule]

theorem inv_startMode (iv : Block) {s : State} (hs : Inv s) (hk : s.keyed = true) : Inv (startMode iv s) where
  mode_keyed _ := hk
  part_mode h := by cases h
  busy_iff_pending := hs.busy_iff_pending
  keyed_schedule := hs.keyed_schedule

/-- A chunk may set PART, but only while MODE = 1. -/
theorem inv_advanceMode (n : Nat) (ct : Block) {s : State} (hs : Inv s) (hm : s.mode = true) :
    Inv (advanceMode n ct s) := by
  rw [advanceMode_eq]
  exact ⟨hs.mode_keyed, fun _ => hm, hs.busy_iff_pending, hs.keyed_schedule⟩

theorem inv_setDout (out : Block) {s : State} (hs : Inv s) : Inv (setDout out s) :=
  hs.of_same_cipher rfl rfl rfl rfl hs.busy_iff_pending

theorem inv_command {i : Instr} {s t : State} (hs : Inv s) (h : CommandEffect s i t) : Inv t := by
  cases h with
  | raised _ c _ => exact hs.finish c
  | keyBound => exact (inv_bindKey_schedule _ hs).finish 0
  | blockOut _ out _ _ => exact (inv_setDout out hs).finish 0
  | modeStarted hk => exact (inv_startMode _ hs hk).finish 0
  | chunkOut _ n ct out _ _ _ hm => exact (inv_advanceMode n ct (inv_setDout out hs) hm).finish 0

theorem inv_complete {s t : State} (hs : Inv s) (h : complete s = .next t) : Inv t := by
  obtain ⟨_, _, ⟨_, _, he⟩ | ⟨_, _, rfl⟩⟩ := complete_effect h
  · exact inv_command hs he
  · exact hs.finish 4

/-- An accepted command sets BUSY and PEND together; no other write touches either. -/
theorem busy_iff_pending_memWrite (off : Nat) (v : Word) {s : State} (hs : s.busy = false ↔ s.pend = none) :
    (memWrite off v s).busy = false ↔ (memWrite off v s).pend = none := by
  rcases memWrite_cases off v s with h | ⟨_, h⟩ | ⟨_, h⟩ | ⟨_, _, h⟩ | ⟨_, _, _, h⟩ | ⟨_, _, _, h⟩ <;> rw [h]
  case inr.inr.inr.inl => simp
  all_goals exact hs

theorem busy_iff_pending_permitted (a : Access) {s : State} (hs : s.busy = false ↔ s.pend = none) :
    (permitted a s).busy = false ↔ (permitted a s).pend = none := by
  cases a with
  | read w off => exact hs
  | write w off v => exact busy_iff_pending_memWrite off v hs

theorem inv_hostAccess {a : Access} {s t : State} (hs : Inv s) (h : hostAccess a s = .next t) : Inv t := by
  have hk := hostAccess_hostKeeps h
  refine hs.of_same_cipher hk.rk hk.keyed hk.mode hk.part ?_
  obtain ⟨_, ⟨_, rfl⟩ | ⟨_, _, rfl⟩⟩ := hostAccess_next h
  · exact hs.busy_iff_pending
  · exact busy_iff_pending_permitted a hs.busy_iff_pending

/-- Settles O20, by the kinds of step: a completion, an idle turn, a host access or an edge of reset. -/
theorem stepKeepsInvariants : Obligations.StepKeepsInvariants := by
  intro s t hs h
  cases step_effect h with
  | completes es _ _ _ h => exact inv_complete (hs.setEvents es) h
  | idles _ ht => exact ht ▸ hs.setEvents _
  | accessed a h => exact inv_hostAccess (hs.setEvents _) h
  | resetAsserted es _ ht => exact ht ▸ inv_assertReset _
  | resetReleased es _ ht =>
    exact ht ▸ hs.of_same_cipher rfl rfl rfl rfl hs.busy_iff_pending

/-- Settles O21: reset satisfies the invariants and every step keeps them. -/
theorem reachableStatesSatisfyInvariants : Obligations.ReachableStatesSatisfyInvariants := by
  intro es k t h
  exact run_keeps Inv stepKeepsInvariants k _ t (inv_reset.setEvents es) h

end Sys2Proof.Machine
end

section
/-! PROOF. The frame of the commands, and who changes KEYED, MODE and PART (10_state.md R22–R24, R41). -/

namespace Sys2Proof.Machine

/-- Settles O16, from the effect of each command. -/
theorem commandsKeepWhatTheyDoNotWrite : Obligations.CommandsKeepWhatTheyDoNotWrite := by
  intro i s t h
  have he := exec_effect h
  obtain ⟨h1, h2, h3, h4, h5, h6, h7, h8⟩ := he.keeps
  refine ⟨h1, h2, h3, h4, h5, h6, h7, h8, ?_⟩
  cases he with
  | raised => cases i <;> simp
  | keyBound => rfl
  | blockOut _ out hi => rcases hi with rfl | rfl <;> exact ⟨rfl, rfl, rfl, rfl, rfl⟩
  | modeStarted => exact ⟨rfl, rfl, rfl⟩
  | chunkOut _ n ct out hi hn => rcases hi with rfl | rfl <;> exact chunk_keeps n ct (setDout out s) hn

/-- Every change of KEYED, MODE and PART from `s` to `t` is by a command that `ran` says was run (10_state.md R22–R24). -/
structure FlagChanges (s t : State) (ran : Instr → Prop) : Prop where
  keyed_kept : s.keyed = true → t.keyed = true
  keyed_set : s.keyed = false → t.keyed = true → ran (.keyInit 32)
  mode_set : s.mode = false → t.mode = true → ran (.cfbInit 16)
  mode_cleared : s.mode = true → t.mode = false → ran (.keyInit 32)
  part_cleared : s.part = true → t.part = false → ran (.keyInit 32) ∨ ran (.cfbInit 16)
  part_set : s.part = false → t.part = true → ∃ n, 1 ≤ n ∧ n ≤ 15 ∧ (ran (.cfbEnc n) ∨ ran (.cfbDec n))

theorem FlagChanges.of_same_flags {s t : State} (ran : Instr → Prop) (hk : t.keyed = s.keyed) (hm : t.mode = s.mode)
    (hp : t.part = s.part) : FlagChanges s t ran := by
  constructor <;> simp_all

theorem FlagChanges.of_command {i : Instr} {s t : State} {ran : Instr → Prop} (hi : ran i) (h : CommandEffect s i t) :
    FlagChanges s t ran := by
  cases h with
  | raised | blockOut => exact .of_same_flags _ rfl rfl rfl
  | keyBound => constructor <;> simp [hi]
  | modeStarted hk => constructor <;> simp [hi, hk]
  | chunkOut _ n ct out hi' hn hk hm =>
    rw [advanceMode_eq]
    refine ⟨id, by simp [hk], by simp [hm], by simp [hm], fun hp => by simp [hp], fun hp ht => ?_⟩
    obtain ⟨h1, h16⟩ : 1 ≤ n ∧ n ≠ 16 := by simpa [hp] using ht
    exact ⟨n, h1, by omega, by rcases hi' with rfl | rfl <;> simp [hi]⟩

theorem FlagChanges.of_complete {s t : State} (h : complete s = .next t) :
    FlagChanges s t fun i => ∃ w, s.pend = some w ∧ decode w = .instr i := by
  obtain ⟨w, hp, ⟨i, hd, he⟩ | ⟨_, _, rfl⟩⟩ := complete_effect h
  · exact .of_command ⟨w, hp, hd⟩ he
  · exact .of_same_flags _ rfl rfl rfl

theorem FlagChanges.of_step {s t : State} (h : step s = .next t) (hno : ∀ es, s.events ≠ .resetAssert :: es) :
    FlagChanges s t fun i => ∃ w, s.pend = some w ∧ decode w = .instr i := by
  cases step_effect h with
  | completes es _ _ _ h =>
    obtain ⟨h1, h2, h3, h4, h5, h6⟩ := FlagChanges.of_complete h
    exact ⟨h1, h2, h3, h4, h5, h6⟩
  | idles _ ht => exact ht ▸ .of_same_flags _ rfl rfl rfl
  | accessed a h =>
    have hk := hostAccess_hostKeeps h
    exact .of_same_flags _ hk.keyed hk.mode hk.part
  | resetAsserted es he => exact absurd he (hno es)
  | resetReleased _ _ ht => exact ht ▸ .of_same_flags _ rfl rfl rfl

/-- A pending word that decodes to a command is that command's word. -/
theorem pend_eq_encode {s : State} {i : Instr} (h : ∃ w, s.pend = some w ∧ decode w = .instr i) :
    s.pend = some (encode i) := by
  obtain ⟨w, hp, hd⟩ := h
  rw [hp, eq_encode_of_decode hd]

/-- Settles O18, from what each kind of step can do to the flags. -/
theorem instanceFlagsChangeOnlyByTheirCommands : Obligations.InstanceFlagsChangeOnlyByTheirCommands := by
  intro s t h hno
  have hf := FlagChanges.of_step h hno
  refine ⟨hf.keyed_kept, fun h0 h1 => pend_eq_encode (hf.keyed_set h0 h1),
    fun h0 h1 => pend_eq_encode (hf.mode_set h0 h1), fun h1 h0 => pend_eq_encode (hf.mode_cleared h1 h0),
    fun h1 h0 => (hf.part_cleared h1 h0).imp pend_eq_encode pend_eq_encode, fun h0 h1 => ?_⟩
  obtain ⟨n, hn1, hn15, ⟨w, hp, hd⟩ | ⟨w, hp, hd⟩⟩ := hf.part_set h0 h1
  · exact ⟨w, n, hp, hn1, hn15, .inl hd⟩
  · exact ⟨w, n, hp, hn1, hn15, .inr hd⟩

end Sys2Proof.Machine
end

section
/-! PROOF. The statements about the register window and host accesses. -/

namespace Sys2Proof.Machine

/-- Settles O23, from STATUS as the or of its fields and from its two reserved ranges. -/
theorem statusReadsItsFields : Obligations.StatusReadsItsFields := by
  refine ⟨fun s => ?_, by decide⟩
  rw [memRead_status]
  exact ⟨statusWord_eq_or s, statusWord_reserved_low s, statusWord_reserved_high s⟩

/-- Settles O24: the write of STATUS, with its one bit set or not. -/
theorem statusWriteClearsOverrun : Obligations.StatusWriteClearsOverrun := by
  intro s w
  change writeStatus w s = _
  rw [writeStatus]
  cases w.getLsbD 4 <;> simp

/-- Settles O28: `accept` on a busy and on an idle core. -/
theorem commandWriteIsAcceptedOrDropped : Obligations.CommandWriteIsAcceptedOrDropped := by
  intro s w
  change accept w s = _
  cases h : s.busy <;> simp [accept, h, takeCommand, dropWrite]

/-- Settles O25, from the register each offset names. -/
theorem reservedAndReadOnlyOffsets : Obligations.ReservedAndReadOnlyOffsets := by
  refine ⟨fun off v s _ h => ?_, fun v s => ⟨memRead_info s, memWrite_ignored v s (.inr (.inl regOf_info)), rfl⟩,
    fun k v s => ⟨memWrite_ignored v s (.inr (.inr (.inl ⟨k, regOf_dout k⟩))),
      memWrite_ignored v s (.inr (.inr (.inr ⟨k, regOf_fr k⟩)))⟩⟩
  have hr : regOf off = .reserved := regOf_reserved off (by omega)
  exact ⟨memRead_reserved hr s, memWrite_ignored v s (.inl hr)⟩

/-- Settles O29, from what a write to each register does to OVR. -/
theorem overrunFollowsDroppedWrites : Obligations.OverrunFollowsDroppedWrites := by
  intro off v s _ ha
  simp only [memWrite, writeReg_ovr, regOf_eq_status off ha, regOf_droppedWhileBusy off ha]

/-- Settles O30: an access at a bus address is one at a window offset, and that has its frame. -/
theorem hostAccessFrame : Obligations.HostAccessFrame := by
  intro a s t h
  obtain ⟨b, hw, hb⟩ : ∃ b : Access, b.isWrite = a.isWrite ∧ hostAccess b s = .next t :=
    h.elim (fun h => ⟨a, rfl, h⟩) busAccess_next
  obtain ⟨h1, h2, h3, h4, h5, h6, h7, h8, h9⟩ := hostAccess_hostKeeps hb
  exact ⟨h1, h2, h3, h4, h5, h6, h7, h8, h9, fun hr => hostAccess_read (hw.trans hr) hb,
    fun _ hbusy => hostAccess_pend_of_busy hbusy hb⟩

end Sys2Proof.Machine
end

section
/-! PROOF. Hidden state (10_state.md R40). -/

namespace Sys2Proof.Machine

/-- The error of a command, other than a KEY_INIT of 32 bytes, on a core that has no key bound: the length is checked
before KEYED (60_exceptions.md R135). -/
def unkeyedError : Instr → BitVec 4
  | .keyInit _ => 1
  | .encBlock n => if n = 16 then 5 else 2
  | .decBlock n => if n = 16 then 5 else 2
  | .cfbInit n => if n = 16 then 5 else 3
  | .cfbEnc n => if n ≤ 16 then 5 else 7
  | .cfbDec n => if n ≤ 16 then 5 else 7

/-- While KEYED = 0 every command but a KEY_INIT of 32 bytes raises its error, whatever else the core holds. -/
theorem exec_unkeyed {i : Instr} (hi : i ≠ .keyInit 32) {s : State} (hk : s.keyed = false) :
    exec i s = .next (finish (unkeyedError i) s) := by
  cases i with
  | keyInit n =>
    rcases execKeyInit_cases n s with ⟨_, h⟩ | ⟨rfl, _⟩
    · exact h
    · exact absurd rfl hi
  | encBlock n =>
    rcases execEncBlock_cases n s with ⟨hn, h⟩ | ⟨hn, _, h⟩ | ⟨_, hk', _⟩
    · rw [h, unkeyedError, if_neg hn]
    · rw [h, unkeyedError, if_pos hn]
    · cases hk.symm.trans hk'
  | decBlock n =>
    rcases execDecBlock_cases n s with ⟨hn, h⟩ | ⟨hn, _, h⟩ | ⟨_, hk', _⟩
    · rw [h, unkeyedError, if_neg hn]
    · rw [h, unkeyedError, if_pos hn]
    · cases hk.symm.trans hk'
  | cfbInit n =>
    rcases execCfbInit_cases n s with ⟨hn, h⟩ | ⟨hn, _, h⟩ | ⟨_, hk', _⟩
    · rw [h, unkeyedError, if_neg hn]
    · rw [h, unkeyedError, if_pos hn]
    · cases hk.symm.trans hk'
  | cfbEnc n =>
    rcases execCfbEnc_cases n s with ⟨hn, h⟩ | ⟨hn, _, h⟩ | ⟨_, hk', _⟩ | ⟨_, hk', _⟩
    · rw [h, unkeyedError, if_neg (Nat.not_le.mpr hn)]
    · rw [h, unkeyedError, if_pos hn]
    all_goals cases hk.symm.trans hk'
  | cfbDec n =>
    rcases execCfbDec_cases n s with ⟨hn, h⟩ | ⟨hn, _, h⟩ | ⟨_, hk', _⟩ | ⟨_, hk', _⟩
    · rw [h, unkeyedError, if_neg (Nat.not_le.mpr hn)]
    · rw [h, unkeyedError, if_pos hn]
    all_goals cases hk.symm.trans hk'

/-- Settles O33: no register shows hidden state; while KEYED = 0 a command that does not bind a key raises an error
that RK has no part in, and one that does overwrites RK. -/
theorem hiddenStateIsNotRead : Obligations.HiddenStateIsNotRead := by
  refine ⟨memRead_hides, fun i s r hk => ?_⟩
  by_cases hi : i = .keyInit 32
  · subst hi
    exact ⟨_, _, rfl, rfl, rfl, fun _ => rfl, fun h => Bool.noConfusion h⟩
  · exact ⟨_, _, exec_unkeyed hi hk, exec_unkeyed (s := { s with rk := r }) hi hk, rfl,
      fun h => Bool.noConfusion (hk.symm.trans h), fun _ => rfl⟩

end Sys2Proof.Machine
end

section
/-! PROOF. A step that completes runs the pending command (10_state.md R38). -/

namespace Sys2Proof.Machine

/-- Settles O6, from the three steps at which a busy core completes. -/
theorem stepRunsThePendingCommand : Obligations.StepRunsThePendingCommand := by
  refine ⟨fun s w hb hr hp => ?_, fun s w i hd => ?_⟩
  · obtain ⟨hnone, hpoll, hcore⟩ := step_completes hb hr
    refine ⟨fun i hd => ⟨fun he => ?_, fun es he => ?_, fun es he => ?_⟩,
      fun y hd => ⟨fun he => ?_, fun es he => ?_, fun es he => ?_⟩⟩
    · rw [hnone he, complete_instr hp hd]
    · rw [hpoll es he, complete_instr hp hd]
    · rw [hcore es he, complete_instr (s := setEvents es s) hp hd, setEvents]
    · rw [hnone he, complete_illegal hp hd, finish]
    · rw [hpoll es he, complete_illegal hp hd, finish]
    · rw [hcore es he, complete_illegal (s := setEvents es s) hp hd, finish, setEvents]
  · obtain ⟨_, _, hcore⟩ := step_completes (s := s.withFetchWord 32 w) rfl rfl
    rw [hcore s.events rfl, complete_instr rfl (decode_of_decodeTableWord hd)]
    rfl

end Sys2Proof.Machine
end

section
/-! PROOF. Two CMD writes with no poll between them (95_test_vectors.md V34). -/

namespace Sys2Proof.Machine

theorem run_event {e : Event} {es : List Event} {s t : State} (k : Nat) (h : handleEvent e (setEvents es s) = .next t) :
    run (k + 1) (setEvents (e :: es) s) = run k t :=
  run_succ k _ t ((step_of_event (s := setEvents (e :: es) s) rfl).trans h)

/-- A CMD write to a core that is not held in reset is accepted or dropped. -/
theorem hostAccess_cmd (w : Word) {s : State} (hr : s.resetLine = false) :
    hostAccess (.write 32 0x000 w) s = .next (accept w s) := by
  have hwell : (Access.write 32 0x000 w).malformed = false := rfl
  rcases hostAccess_cases (.write 32 0x000 w) s with ⟨ho, _⟩ | ⟨_, hm, _⟩ | ⟨_, _, _, h⟩
  · exact absurd ho (by simp [Access.offset])
  · simp [hwell, hr] at hm
  · exact h

theorem accept_idle (w : Word) {s : State} (hb : s.busy = false) : accept w s = takeCommand w s := by
  simp [accept, hb]

theorem accept_busy (w : Word) {s : State} (hb : s.busy = true) : accept w s = dropWrite s := by
  simp [accept, hb]

theorem run_cmd_idle (w : Word) (k : Nat) (es : List Event) {s : State} (hb : s.busy = false)
    (hr : s.resetLine = false) :
    run (k + 1) (setEvents (.access (.write 32 0x000 w) :: es) s) = run k (setEvents es (takeCommand w s)) := by
  apply run_event
  rw [handleEvent, hostAccess_cmd w (s := setEvents es s) hr, accept_idle w (s := setEvents es s) hb]
  rfl

theorem run_cmd_busy (w : Word) (k : Nat) (es : List Event) {s : State} (hb : s.busy = true)
    (hr : s.resetLine = false) :
    run (k + 1) (setEvents (.access (.write 32 0x000 w) :: es) s) = run k (setEvents es (dropWrite s)) := by
  apply run_event
  rw [handleEvent, hostAccess_cmd w (s := setEvents es s) hr, accept_busy w (s := setEvents es s) hb]
  rfl

/-- `i` is the command that writes `f` of RK and DIN to DOUT once a key is bound. -/
def RunsBlock (f : Vector Block 10 → Block → Block) (i : Instr) : Prop :=
  ∀ s : State, s.keyed = true → exec i s = .next (finish 0 (setDout (f s.rk s.din) s))

theorem runsBlock_encBlock : RunsBlock encrypt (.encBlock 16) := by
  intro s hk
  rcases execEncBlock_cases 16 s with ⟨h, _⟩ | ⟨_, hk', _⟩ | ⟨_, _, h⟩
  · exact absurd rfl h
  · cases hk.symm.trans hk'
  · exact h

theorem runsBlock_decBlock : RunsBlock decrypt (.decBlock 16) := by
  intro s hk
  rcases execDecBlock_cases 16 s with ⟨h, _⟩ | ⟨_, hk', _⟩ | ⟨_, _, h⟩
  · exact absurd rfl h
  · cases hk.symm.trans hk'
  · exact h

/-- The core's turn with a block command pending. -/
theorem run_core_block {f : Vector Block 10 → Block → Block} {i : Instr} {w : Word} {s : State} (k : Nat)
    (es : List Event) (hf : RunsBlock f i) (hd : decode w = .instr i) (hp : s.pend = some w) (hk : s.keyed = true)
    (hb : s.busy = true) (hr : s.resetLine = false) :
    run (k + 1) (setEvents (.core :: es) s) = run k (setEvents es (finish 0 (setDout (f s.rk s.din) s))) := by
  apply run_event
  rw [handleEvent, coreTurn_busy (s := setEvents es s) hb hr, complete_instr (s := setEvents es s) hp hd,
    hf (setEvents es s) hk]
  rfl

theorem latency_encBlock (l : Latencies) {w : Word} {n : Nat} (hd : decode w = .instr (.encBlock n)) :
    l.of w = l.block := by
  rw [Latencies.of, hd]

/-- Two CMD writes a cycle apart, with no poll between them (95_test_vectors.md V34). -/
def unpolledWrites (w₁ w₂ : Word) : List (Nat × Access) := [(0, .write 32 0x000 w₁), (1, .write 32 0x000 w₂)]

/-- With a latency over 1 the second write comes before the first command's completion. -/
theorem timedEvents_unpolledWrites_late {l : Latencies} {w₁ : Word} (w₂ : Word) (h : 1 < l.of w₁) :
    timedEvents l none (unpolledWrites w₁ w₂) =
      [.access (.write 32 0x000 w₁), .access (.write 32 0x000 w₂), .core] := by
  simp [unpolledWrites, timedEvents, commandOf, Config.busWidth, offCmd, h]

/-- With latency 1 the completion is due at the second write's cycle and comes before it. -/
theorem timedEvents_unpolledWrites_due {l : Latencies} {w₁ : Word} (w₂ : Word) (h : l.of w₁ = 1) :
    timedEvents l none (unpolledWrites w₁ w₂) =
      [.access (.write 32 0x000 w₁), .core, .access (.write 32 0x000 w₂), .core] := by
  simp [unpolledWrites, timedEvents, commandOf, Config.busWidth, offCmd, h]

section
variable {f₁ : Vector Block 10 → Block → Block} {i₁ : Instr} {w₁ : Word} {s : State} (hf₁ : RunsBlock f₁ i₁)
  (hd₁ : decode w₁ = .instr i₁) (hk : s.keyed = true) (hb : s.busy = false) (hr : s.resetLine = false)
include hf₁ hd₁ hk hb hr

/-- A block command and a second CMD write before it completes: the write is dropped. -/
theorem runEvents_second_write_dropped (w₂ : Word) :
    runEvents [.access (.write 32 0x000 w₁), .access (.write 32 0x000 w₂), .core] s =
      .next (setEvents [] (finish 0 (setDout (f₁ s.rk s.din) (dropWrite (takeCommand w₁ s))))) := by
  calc run 7 (setEvents _ s)
    _ = run 6 (setEvents _ (takeCommand w₁ s)) := run_cmd_idle w₁ 6 _ hb hr
    _ = run 5 (setEvents _ (dropWrite (takeCommand w₁ s))) := run_cmd_busy w₂ 5 _ rfl hr
    _ = run 4 (setEvents [] _) := run_core_block 4 [] hf₁ hd₁ rfl hk rfl hr
    _ = _ := run_ended 4 _ ⟨rfl, rfl⟩

/-- A block command and a second one written after it completed: both run. -/
theorem runEvents_second_write_accepted {f₂ : Vector Block 10 → Block → Block} {i₂ : Instr} {w₂ : Word}
    (hf₂ : RunsBlock f₂ i₂) (hd₂ : decode w₂ = .instr i₂) :
    runEvents [.access (.write 32 0x000 w₁), .core, .access (.write 32 0x000 w₂), .core] s =
      .next (setEvents [] (finish 0 (setDout (f₂ s.rk s.din)
        (takeCommand w₂ (finish 0 (setDout (f₁ s.rk s.din) (takeCommand w₁ s))))))) := by
  calc run 9 (setEvents _ s)
    _ = run 8 (setEvents _ (takeCommand w₁ s)) := run_cmd_idle w₁ 8 _ hb hr
    _ = run 7 (setEvents _ (finish 0 (setDout (f₁ s.rk s.din) (takeCommand w₁ s)))) :=
      run_core_block 7 _ hf₁ hd₁ rfl hk rfl hr
    _ = run 6 (setEvents _ (takeCommand w₂ _)) := run_cmd_idle w₂ 6 _ rfl hr
    _ = run 5 (setEvents [] _) := run_core_block 5 [] hf₂ hd₂ rfl hk rfl hr
    _ = _ := run_ended 5 _ ⟨rfl, rfl⟩

end

/-- Settles O57, by the two orders that the block latency can make. -/
theorem bothOutcomesOfUnpolledWrite : Obligations.BothOutcomesOfUnpolledWrite := by
  intro l s hl hk hb hr ho
  have hEnc : decode 0x00001002 = .instr (.encBlock 16) := by decide
  have hDec : decode 0x00001003 = .instr (.decBlock 16) := by decide
  have hof := latency_encBlock l hEnc
  have hblock : 1 ≤ l.block := by
    simp only [Latencies.legal, Bool.and_eq_true, decide_eq_true_eq] at hl
    omega
  change ∃ t, runEvents (timedEvents l none (unpolledWrites 0x00001002 0x00001003)) s = .next t ∧ _
  rcases Nat.lt_or_eq_of_le hblock with h | h
  · rw [timedEvents_unpolledWrites_late _ (hof ▸ h)]
    exact ⟨_, runEvents_second_write_dropped runsBlock_encBlock hEnc hk hb hr _, rfl, rfl,
      fun _ => ⟨by simp, by simp⟩, fun h1 => by omega⟩
  · rw [timedEvents_unpolledWrites_due _ (hof.trans h.symm)]
    exact ⟨_, runEvents_second_write_accepted runsBlock_encBlock hEnc hk hb hr runsBlock_decBlock hDec, rfl, rfl,
      fun h1 => by omega, fun _ => ⟨by simp [ho], by simp⟩⟩

end Sys2Proof.Machine
end

section
/-! SUPPORT. Byte lanes of the data windows (20_memory.md R47–R49). -/

namespace Sys2Proof.Machine

/-- Four packed bytes are the or of the bytes shifted to their lanes (20_memory.md R48). -/
theorem packLanes_eq_or (b0 b1 b2 b3 : Byte) :
    packLanes b0 b1 b2 b3 = (b0.setWidth 32 <<< 24) ||| (b1.setWidth 32 <<< 16) ||| (b2.setWidth 32 <<< 8) |||
      b3.setWidth 32 := by
  rw [← BitVec.setWidth_eq (packLanes b0 b1 b2 b3)]
  change BitVec.setWidth (w := 8 + 8 + 8 + 8) 32 _ = _
  rw [packLanes]
  simp only [BitVec.setWidth_append_eq_shiftLeft_setWidth_or, BitVec.shiftLeft_or_distrib, ← BitVec.shiftLeft_add]

theorem memRead_din (k : Fin 4) (s : State) : memRead (0x040 + 4 * k.val) s = blockWord s.din k := by
  rw [memRead, regOf_din, readReg]

theorem memRead_dout (k : Fin 4) (s : State) : memRead (0x050 + 4 * k.val) s = blockWord s.dout k := by
  rw [memRead, regOf_dout, readReg]

theorem memRead_fr (k : Fin 4) (s : State) : memRead (0x060 + 4 * k.val) s = blockWord s.fr k := by
  rw [memRead, regOf_fr, readReg]

theorem memRead_key (k : Fin 8) (s : State) : memRead (0x020 + 4 * k.val) s = 0 := by
  rw [memRead, regOf_key, readReg]

theorem memWrite_key_busy (k : Fin 8) (v : Word) {s : State} (hb : s.busy = true) :
    memWrite (0x020 + 4 * k.val) v s = dropWrite s := by
  rw [memWrite, regOf_key, writeReg, writeKey, if_pos hb]

theorem memWrite_key_idle (k : Fin 8) (v : Word) {s : State} (hb : s.busy = false) :
    memWrite (0x020 + 4 * k.val) v s = { s with keybuf := setKeyWord s.keybuf k v } := by
  rw [memWrite, regOf_key, writeReg, writeKey, if_neg (by simp [hb])]

theorem memWrite_din_busy (k : Fin 4) (v : Word) {s : State} (hb : s.busy = true) :
    memWrite (0x040 + 4 * k.val) v s = dropWrite s := by
  rw [memWrite, regOf_din, writeReg, writeDin, if_pos hb]

theorem memWrite_din_idle (k : Fin 4) (v : Word) {s : State} (hb : s.busy = false) :
    memWrite (0x040 + 4 * k.val) v s = { s with din := setBlockWord s.din k v } := by
  rw [memWrite, regOf_din, writeReg, writeDin, if_neg (by simp [hb])]

/-- The aligned offsets of the DOUT and FR windows ignore writes. -/
theorem memWrite_output_windows {off : Nat} (v : Word) (s : State) (h : 0x050 ≤ off ∧ off ≤ 0x06C)
    (ha : off % 4 = 0) : memWrite off v s = s := by
  by_cases hf : off < 0x060
  · obtain ⟨k, rfl⟩ : ∃ k : Fin 4, off = 0x050 + 4 * k.val :=
      ⟨⟨(off - 0x050) / 4, by omega⟩, by dsimp; omega⟩
    exact memWrite_ignored v s (.inr (.inr (.inl ⟨k, regOf_dout k⟩)))
  · obtain ⟨k, rfl⟩ : ∃ k : Fin 4, off = 0x060 + 4 * k.val :=
      ⟨⟨(off - 0x060) / 4, by omega⟩, by dsimp; omega⟩
    exact memWrite_ignored v s (.inr (.inr (.inr ⟨k, regOf_fr k⟩)))

/-- A buffer whose word `k` alone took the lanes of `v`, said byte by byte: both windows' words are written so. -/
theorem bytes_of_word_written {n k : Nat} {b b' : Vector Byte n} {v : Word} (hk : 4 * k + 3 < n)
    (h : ∀ (i : Nat) (hi : i < n), b'[i] = if i / 4 = k then laneByte v (i % 4) else b[i]) :
    b'[4 * k] = v.extractLsb' 24 8 ∧ b'[4 * k + 1] = v.extractLsb' 16 8 ∧ b'[4 * k + 2] = v.extractLsb' 8 8 ∧
      b'[4 * k + 3] = v.extractLsb' 0 8 ∧ ∀ i : Fin n, i.val / 4 ≠ k → b'[i] = b[i] := by
  have lane (j : Nat) (hj : j < 4) : b'[4 * k + j] = laneByte v j := by
    rw [h, if_pos (by omega), Nat.mul_add_mod, Nat.mod_eq_of_lt hj]
  refine ⟨lane 0 (by omega), lane 1 (by omega), lane 2 (by omega), lane 3 (by omega), fun i hi => ?_⟩
  exact (h i i.isLt).trans (if_neg hi)

end Sys2Proof.Machine
end

section
/-! SUPPORT. Which host accesses are carried out, at offsets and at bus addresses, and what they leave of a busy core
(20_memory.md R43–R46, R49). -/

namespace Sys2Proof.Machine

/-- A well-formed access in the window of a core that is not held in reset is carried out. -/
theorem hostAccess_permitted {a : Access} {s : State} (ho : a.offset < 0x100) (hm : a.malformed = false)
    (hr : s.resetLine = false) : hostAccess a s = .next (permitted a s) := by
  rcases hostAccess_cases a s with ⟨h, _⟩ | ⟨_, h | h, _⟩ | ⟨_, _, _, h⟩
  · omega
  · cases hm.symm.trans h
  · cases hr.symm.trans h
  · exact h

theorem hostAccess_malformed {a : Access} (s : State) (ho : a.offset < 0x100) (hm : a.malformed = true) :
    hostAccess a s = .next (record (.refused a) s) := by
  rcases hostAccess_cases a s with ⟨h, _⟩ | ⟨_, _, h⟩ | ⟨_, h, _⟩
  · omega
  · exact h
  · cases hm.symm.trans h

/-- An access in the window never stops the model. -/
theorem hostAccess_in_window {a : Access} (s : State) (ho : a.offset < 0x100) : ∃ t, hostAccess a s = .next t := by
  rcases hostAccess_cases a s with ⟨h, _⟩ | ⟨_, _, h⟩ | ⟨_, _, _, h⟩
  · omega
  · exact ⟨_, h⟩
  · exact ⟨_, h⟩

theorem malformed_iff (a : Access) : a.malformed = true ↔ a.width ≠ 32 ∨ a.offset % 4 ≠ 0 := by
  simp [Access.malformed, Config.busWidth]

theorem hostPoll_idle {s : State} (hb : s.busy = false) : hostPoll s = hostAccess (.read 32 0x004) s := by
  rcases hostPoll_cases s with ⟨hb', _, _⟩ | ⟨_, h⟩
  · cases hb.symm.trans hb'
  · exact h

theorem windowOffset_eq_some_iff (a off : Nat) :
    windowOffset a = some off ↔ Config.base ≤ a ∧ a < Config.base + 0x100 ∧ off = a - Config.base := by
  rcases windowOffset_cases a with ⟨hl, hu, h⟩ | ⟨hn, h⟩
  · simp [h, hl, hu, eq_comm]
  · rw [h]
    exact ⟨nofun, fun ⟨hl, hu, _⟩ => absurd ⟨hl, hu⟩ hn⟩

theorem windowOffset_base_add {off : Nat} (ho : off < 0x100) : windowOffset (Config.base + off) = some off :=
  (windowOffset_eq_some_iff _ _).mpr (by omega)

theorem busAccess_of_offset {a : Access} {off : Nat} (s : State) (h : windowOffset a.offset = some off) :
    busAccess a s = hostAccess (a.at off) s := by
  rw [busAccess, h]

/-- While BUSY = 1 a write changes OVR at most (10_state.md R33, R37; 20_memory.md R49). -/
theorem memWrite_of_busy (off : Nat) (v : Word) {s : State} (hb : s.busy = true) :
    memWrite off v s = { s with ovr := (memWrite off v s).ovr } := by
  rcases memWrite_cases off v s with h | ⟨_, h⟩ | ⟨_, h⟩ | ⟨hi, _⟩ | ⟨_, hi, _⟩ | ⟨_, hi, _⟩
  · rw [h]
  · rw [h]; rfl
  · rw [h]; rfl
  all_goals cases hb.symm.trans hi

/-- While BUSY = 1 a host access changes OVR and the host's record at most. -/
theorem hostAccess_of_busy {a : Access} {s t : State} (hb : s.busy = true) (h : hostAccess a s = .next t) :
    t = { s with ovr := t.ovr, seen := t.seen } := by
  obtain ⟨_, ⟨_, rfl⟩ | ⟨_, _, rfl⟩⟩ := hostAccess_next h
  · rfl
  · cases a with
    | read w off => rfl
    | write w off v =>
      rw [permitted_write, memWrite_of_busy off v hb]

end Sys2Proof.Machine
end

section
/-! SUPPORT. A completion reads and writes neither OVR nor the host's side of the state (10_state.md R38, R41). -/

namespace Sys2Proof.Machine

/-- `s` with OVR, the events to come and the host's record replaced: what no command reads or writes. -/
def withHostSide (o : Bool) (es : List Event) (r : List Response) (s : State) : State :=
  { s with ovr := o, events := es, seen := r }

/-- A result with its next state, if it has one, put through `f`. -/
def mapNext (f : State → State) : Result → Result
  | .next s => .next (f s)
  | .fault r => .fault r
  | .refused r => .refused r

section
variable (o : Bool) (es : List Event) (r : List Response)

/-- A command checks and writes the same whatever the host's side holds. -/
theorem exec_withHostSide (i : Instr) (s : State) :
    exec i (withHostSide o es r s) = mapNext (withHostSide o es r) (exec i s) := by
  cases i with
  | keyInit n => simp only [exec, execKeyInit, apply_ite (mapNext _)]; rfl
  | encBlock n => simp only [exec, execEncBlock, apply_ite (mapNext _)]; rfl
  | decBlock n => simp only [exec, execDecBlock, apply_ite (mapNext _)]; rfl
  | cfbInit n => simp only [exec, execCfbInit, apply_ite (mapNext _)]; rfl
  | cfbEnc n => simp only [exec, execCfbEnc, apply_ite (mapNext _), advanceMode_eq]; rfl
  | cfbDec n => simp only [exec, execCfbDec, apply_ite (mapNext _), advanceMode_eq]; rfl

theorem complete_withHostSide {s t : State} (h : complete s = .next t) :
    complete (withHostSide o es r s) = .next (withHostSide o es r t) := by
  rcases complete_cases s with ⟨_, hc⟩ | ⟨w, i, hp, hd, hc⟩ | ⟨w, y, hp, hd, hc⟩ <;> rw [hc] at h
  · cases h
  · rw [complete_instr (s := withHostSide o es r s) hp hd, exec_withHostSide, h, mapNext]
  · cases h
    exact complete_illegal (s := withHostSide o es r s) hp hd

end

/-- A pending word always completes. -/
theorem complete_next {s : State} {w : Word} (hp : s.pend = some w) : ∃ t, complete s = .next t := by
  rcases complete_cases s with ⟨h, _⟩ | ⟨_, i, _, _, h⟩ | ⟨_, _, _, _, h⟩
  · cases hp.symm.trans h
  · exact (exec_next i s).imp fun t ht => h.trans ht
  · exact ⟨_, h⟩

theorem complete_keeps {s t : State} (h : complete s = .next t) : CommandKeeps s t := by
  obtain ⟨_, _, ⟨_, _, he⟩ | ⟨_, _, rfl⟩⟩ := complete_effect h
  · exact he.keeps
  · constructor <;> rfl

/-- The core's turn on a busy core, whatever the host's side holds. -/
theorem run_core_withHostSide {s c : State} (o : Bool) (r : List Response) (hb : s.busy = true)
    (hr : s.resetLine = false) (hc : complete s = .next c) :
    run 1 (withHostSide o [.core] r s) = .next (withHostSide o [] r c) := by
  obtain ⟨_, _, hcore⟩ := step_completes (s := withHostSide o [.core] r s) hb hr
  exact run_succ 0 _ _ ((hcore [] rfl).trans (complete_withHostSide o [] r (s := s) hc))

/-- Accesses in the window of a busy core change OVR and the host's record at most, and none of them stops the run. -/
theorem run_accesses_of_busy (as : List Access) (es : List Event) {s : State} (hb : s.busy = true)
    (has : ∀ a ∈ as, a.offset < 0x100) :
    ∃ o r, run as.length (setEvents (as.map Event.access ++ es) s) = .next (withHostSide o es r s) := by
  induction as generalizing s with
  | nil => exact ⟨s.ovr, s.seen, rfl⟩
  | cons a as ih =>
    obtain ⟨ha, has⟩ := List.forall_mem_cons.mp has
    obtain ⟨u, hu⟩ := hostAccess_in_window (setEvents (as.map Event.access ++ es) s) ha
    have hsame : u = withHostSide u.ovr (as.map Event.access ++ es) u.seen s :=
      hostAccess_of_busy (s := setEvents (as.map Event.access ++ es) s) hb hu
    obtain ⟨o, r, hrun⟩ := ih (s := u) (hsame ▸ hb) has
    refine ⟨o, r, ?_⟩
    calc run (as.length + 1) (setEvents (Event.access a :: (as.map Event.access ++ es)) s)
      _ = run as.length u := run_event _ hu
      _ = run as.length (setEvents (as.map Event.access ++ es) u) := by rw [hsame]; rfl
      _ = .next (withHostSide o es r u) := hrun
      _ = .next (withHostSide o es r s) := by rw [hsame]; rfl

end Sys2Proof.Machine
end

section
/-! PROOF. The statements of 20_memory.md: the window, its data words, and accesses around a completion. -/

namespace Sys2Proof.Machine

/-- Settles O7: the first step is the completion, with the poll still next; the second is its read of STATUS. -/
theorem pollReadsTheCompletedStatus : Obligations.PollReadsTheCompletedStatus := by
  intro s w es he hb hr hp
  obtain ⟨c, hc⟩ := complete_next hp
  have hk := complete_keeps hc
  obtain ⟨_, hpoll, _⟩ := step_completes hb hr
  have hread : step c = .next (record (.value 0x004 (statusWord c)) (setEvents es c)) := by
    rw [step_of_event (hk.events.trans he), handleEvent, hostPoll_idle (s := setEvents es c) hk.busy]
    exact hostAccess_permitted (by decide) rfl (hk.resetLine.trans hr)
  refine ⟨c, record (.value 0x004 (statusWord c)) (setEvents es c), hc, ?_, rfl, hk.busy, rfl, ?_⟩
  · rw [run_succ 1 s c ((hpoll es he).trans hc), run_succ 0 c _ hread, run_zero]
  · rw [record_seen, setEvents_seen, hk.seen]

/-- Settles O26, from the word each window reads and its bytes shifted to their lanes. -/
theorem dataWindowsReadBigEndian : Obligations.DataWindowsReadBigEndian := by
  refine fun s => ⟨fun k => ?_, fun k => memRead_key k s⟩
  rw [memRead_din, memRead_dout, memRead_fr]
  exact ⟨packLanes_eq_or .., packLanes_eq_or .., packLanes_eq_or ..⟩

/-- Settles O27: KEY and DIN words are written on an idle core and dropped on a busy one; DOUT and FR ignore writes. -/
theorem dataWindowWrites : Obligations.DataWindowWrites := by
  refine fun s v => ⟨fun k => ⟨fun hb => memWrite_key_busy k v hb, fun hb => ?_⟩,
    fun k => ⟨fun hb => memWrite_din_busy k v hb, fun hb => ?_⟩,
    fun off h1 h2 ha => memWrite_output_windows v s ⟨h1, h2⟩ ha⟩
  · exact ⟨_, memWrite_key_idle k v hb, bytes_of_word_written (by omega) (setKeyWord_getElem s.keybuf k v)⟩
  · exact ⟨_, memWrite_din_idle k v hb, bytes_of_word_written (by omega) (setBlockWord_getElem s.din k v)⟩

/-- Settles O56: the accesses leave the busy core but for OVR and the record, and the completion reads neither. -/
theorem latencyDoesNotChangeResults : Obligations.LatencyDoesNotChangeResults := by
  intro s w as hb hr hp has
  obtain ⟨c, hc⟩ := complete_next hp
  obtain ⟨o, r, hrun⟩ := run_accesses_of_busy as [.core] hb has
  exact ⟨withHostSide o [] r c, withHostSide s.ovr [] s.seen c,
    (run_add _ 1 _ _ hrun).trans (run_core_withHostSide o r hb hr hc),
    run_core_withHostSide s.ovr s.seen hb hr hc, rfl⟩

/-- Settles O31: a well-formed access is carried out and a malformed one only recorded. -/
theorem malformedAccessesAreRefused : Obligations.MalformedAccessesAreRefused := by
  refine ⟨fun off v s ho ha hr => ?_,
    fun a s ho hm => ⟨hostAccess_malformed s ho ((malformed_iff a).mpr hm), rfl⟩⟩
  have hwell (a : Access) (hw : a.width = 32) (hoff : a.offset = off) : a.malformed = false := by
    rw [Bool.eq_false_iff, Ne, malformed_iff, hw, hoff, ha]
    simp
  exact ⟨hostAccess_permitted ho (hwell _ rfl rfl) hr, hostAccess_permitted ho (hwell _ rfl rfl) hr⟩

/-- Settles O32, from the two cases of `windowOffset`. -/
theorem windowLiesAtBase : Obligations.WindowLiesAtBase := by
  refine ⟨Nat.mul_mod_right .., windowOffset_eq_some_iff, fun w off s ho => ?_, fun w off v s ho => ?_,
    fun a s ho => ?_⟩
  · exact busAccess_of_offset (a := .read w (Config.base + off)) s (windowOffset_base_add ho)
  · exact busAccess_of_offset (a := .write w (Config.base + off) v) s (windowOffset_base_add ho)
  · rcases busAccess_cases a s with ⟨off, hw, _⟩ | ⟨_, h⟩
    · obtain ⟨hl, hu, _⟩ := (windowOffset_eq_some_iff _ _).mp hw
      omega
    · exact h

end Sys2Proof.Machine
end

section
/-! SUPPORT. The fields of a command word in both directions: decode, encode and the masks of the opcode map
(30_encoding.md R64–R72). -/

namespace Sys2Proof.Machine

/-- A word decodes to a command exactly when its fields are that command's (30_encoding.md R64–R69). -/
theorem decode_eq_instr_iff (w : Word) (i : Instr) :
    decode w = .instr i ↔
      fieldRsv1 w = 0 ∧ fieldRsv0 w = 0 ∧ fieldOp w = i.op ∧ (fieldLen w).toNat = i.len := by
  refine ⟨decode_instr_fields, fun ⟨h1, h0, hop, hlen⟩ => ?_⟩
  rw [decode, if_neg (by simp [h1, h0]), hop, hlen]
  cases i <;> rfl

theorem decode_encode {i : Instr} (h : i.wf = true) : decode (encode i) = .instr i := by
  obtain ⟨h1, h0, hlen, hop⟩ := Laws.EncodedFields.of_fields i h
  exact (decode_eq_instr_iff _ i).mpr ⟨h1, h0, hop, hlen⟩

theorem wf_iff_len_le (i : Instr) : i.wf = true ↔ i.len ≤ 63 := decide_eq_true_iff

/-- LEN has 6 bits, so a word decodes to well-formed commands only. -/
theorem wf_of_decode {w : Word} {i : Instr} (h : decode w = .instr i) : i.wf = true := by
  obtain ⟨_, _, _, hlen⟩ := decode_instr_fields h
  have hlt := (fieldLen w).isLt
  exact (wf_iff_len_le i).mpr (by omega)

/-- A word is ILLEGAL exactly when a reserved field is not 0 or its OP is reserved (30_encoding.md R68, R69). -/
theorem decode_illegal_iff (w : Word) :
    (∃ y, decode w = .illegal y) ↔
      (fieldRsv1 w ≠ 0 ∨ fieldRsv0 w ≠ 0) ∨ fieldOp w = 0 ∨ 7 ≤ (fieldOp w).toNat := by
  have hzero : fieldOp w = 0 ↔ (fieldOp w).toNat = 0 := BitVec.toNat_inj.symm
  rw [decode]
  split
  next hr => exact iff_of_true ⟨_, rfl⟩ (.inl hr)
  next hr =>
    rw [or_iff_right hr, hzero]
    split <;> rename_i hop
    case h_7 => exact iff_of_true ⟨_, rfl⟩ (by grind)
    all_goals exact iff_of_false (by simp) (by omega)

/-- A word that is not ILLEGAL is a command. -/
theorem decode_instr_of_not_illegal {w : Word} (h : ¬∃ y, decode w = .illegal y) : ∃ i, decode w = .instr i := by
  cases hd : decode w with
  | instr i => exact ⟨i, rfl⟩
  | illegal y => exact absurd ⟨y, hd⟩ h

/-- A field is not 0 exactly when one of its bits is set. -/
theorem extractLsb'_ne_zero_iff (w : Word) (start len : Nat) :
    w.extractLsb' start len ≠ 0 ↔ ∃ k, (start ≤ k ∧ k < start + len) ∧ w.getLsbD k = true := by
  constructor
  · intro h
    by_contra! hno
    refine h (BitVec.eq_of_getLsbD_eq fun j hj => ?_)
    simpa [hj] using hno (start + j) (by omega)
  · rintro ⟨k, ⟨hl, hu⟩, hk⟩ h
    have hbit : (w.extractLsb' start len).getLsbD (k - start) = true := by
      rw [BitVec.getLsbD_extractLsb', Nat.add_sub_cancel' hl, hk, decide_eq_true (by omega)]
      rfl
    simp [h] at hbit

/-- A set bit in 7:4 or in 31:14 is what makes a reserved field not 0 (30_encoding.md R69). -/
theorem reserved_bit_set_iff (w : Word) :
    (∃ k, (4 ≤ k ∧ k ≤ 7 ∨ 14 ≤ k ∧ k ≤ 31) ∧ w.getLsbD k = true) ↔ fieldRsv1 w ≠ 0 ∨ fieldRsv0 w ≠ 0 := by
  rw [fieldRsv1, fieldRsv0, extractLsb'_ne_zero_iff, extractLsb'_ne_zero_iff, or_comm, ← exists_or]
  refine exists_congr fun k => ?_
  rw [← or_and_right]
  refine and_congr_left fun _ => ?_
  omega

/-- Words with equal fields are equal. -/
theorem word_eq_iff_fields (w v : Word) :
    w = v ↔ fieldRsv1 w = fieldRsv1 v ∧ fieldLen w = fieldLen v ∧ fieldRsv0 w = fieldRsv0 v ∧
      fieldOp w = fieldOp v := by
  refine ⟨fun h => by simp [h], fun ⟨h1, hlen, h0, hop⟩ => ?_⟩
  rw [← append_fields w, h1, hlen, h0, hop, append_fields]

/-- The mask of the opcode map keeps every field but LEN (30_encoding.md R66). -/
theorem fields_and_mask (w : Word) :
    fieldRsv1 (w &&& 0xFFFFC0FF) = fieldRsv1 w ∧ fieldLen (w &&& 0xFFFFC0FF) = 0 ∧
      fieldRsv0 (w &&& 0xFFFFC0FF) = fieldRsv0 w ∧ fieldOp (w &&& 0xFFFFC0FF) = fieldOp w := by
  refine ⟨?_, ?_, ?_, ?_⟩
  · exact BitVec.extractLsb'_and.trans BitVec.and_allOnes
  · exact BitVec.extractLsb'_and.trans BitVec.and_zero
  · exact BitVec.extractLsb'_and.trans BitVec.and_allOnes
  · exact BitVec.extractLsb'_and.trans BitVec.and_allOnes

theorem fields_setWidth_op (op : BitVec 4) :
    fieldRsv1 (op.setWidth 32) = 0 ∧ fieldLen (op.setWidth 32) = 0 ∧ fieldRsv0 (op.setWidth 32) = 0 ∧
      fieldOp (op.setWidth 32) = op := by
  revert op; decide

/-- Under the mask a word is its OP exactly when both reserved fields are 0 (30_encoding.md R66). -/
theorem and_mask_eq_op_iff (w : Word) (op : BitVec 4) :
    w &&& 0xFFFFC0FF = op.setWidth 32 ↔ fieldRsv1 w = 0 ∧ fieldRsv0 w = 0 ∧ fieldOp w = op := by
  obtain ⟨m1, mlen, m0, mop⟩ := fields_and_mask w
  obtain ⟨o1, olen, o0, oop⟩ := fields_setWidth_op op
  rw [word_eq_iff_fields, m1, mlen, m0, mop, o1, olen, o0, oop]
  simp

/-- One row of the opcode map: the commands of one OP, with any n (30_encoding.md R66). -/
theorem exists_decode_eq_row_iff {row : Nat → Instr} (op : BitVec 4) (hop : ∀ n, (row n).op = op)
    (hlen : ∀ n, (row n).len = n) (w : Word) :
    (∃ n, decode w = .instr (row n)) ↔ w &&& 0xFFFFC0FF = op.setWidth 32 := by
  rw [and_mask_eq_op_iff]
  simp [decode_eq_instr_iff, hop, hlen]

/-- LEN by a shift and a mask (30_encoding.md R65). -/
theorem fieldLen_toNat (w : Word) : (fieldLen w).toNat = ((w >>> 8) &&& 0x3F).toNat := by
  rw [fieldLen, BitVec.extractLsb'_toNat, BitVec.toNat_and, BitVec.toNat_ushiftRight]
  exact (Nat.and_two_pow_sub_one_eq_mod _ 6).symm

/-- "The word is `OP | n << 8`" (30_encoding.md R72). -/
theorem encode_eq_or {i : Instr} (h : i.wf = true) :
    encode i = i.op.setWidth 32 ||| BitVec.ofNat 32 i.len <<< 8 := by
  have hlen : (BitVec.ofNat 6 i.len).setWidth 32 = BitVec.ofNat 32 i.len :=
    BitVec.setWidth_ofNat_of_le_of_lt (by decide) (Nat.lt_succ_of_le ((wf_iff_len_le i).mp h))
  rw [← BitVec.setWidth_eq (encode i)]
  change BitVec.setWidth (w := 18 + 6 + 4 + 4) 32 _ = _
  rw [encode]
  simp only [BitVec.setWidth_append_eq_shiftLeft_setWidth_or, BitVec.shiftLeft_or_distrib,
    ← BitVec.shiftLeft_add, hlen]
  simp [BitVec.or_comm]

/-- The words that assemble, each to its encoding (30_encoding.md R72). -/
theorem assembleInstr_of_le {i : Instr} (h : i.len ≤ 63) :
    assembleInstr i = some (i.op.setWidth 32 ||| BitVec.ofNat 32 i.len <<< 8) := by
  have hwf := (wf_iff_len_le i).mpr h
  rw [assembleInstr, if_pos hwf, encode_eq_or hwf]

theorem assembleInstr_of_lt {i : Instr} (h : 63 < i.len) : assembleInstr i = none := by
  rw [assembleInstr, if_neg (mt (wf_iff_len_le i).mp (Nat.not_le.mpr h))]

/-- IllegalCommand is the error of no command (60_exceptions.md R136). -/
theorem exec_err_ne_illegalCommand {i : Instr} {s t : State} (h : exec i s = .next t) : t.err ≠ 4 := by
  cases i with
  | keyInit n =>
    rcases execKeyInit_cases n s with ⟨_, he⟩ | ⟨_, he⟩ <;> cases he.symm.trans h <;> simp
  | encBlock n =>
    rcases execEncBlock_cases n s with ⟨_, he⟩ | ⟨_, _, he⟩ | ⟨_, _, he⟩ <;> cases he.symm.trans h <;> simp
  | decBlock n =>
    rcases execDecBlock_cases n s with ⟨_, he⟩ | ⟨_, _, he⟩ | ⟨_, _, he⟩ <;> cases he.symm.trans h <;> simp
  | cfbInit n =>
    rcases execCfbInit_cases n s with ⟨_, he⟩ | ⟨_, _, he⟩ | ⟨_, _, he⟩ <;> cases he.symm.trans h <;> simp
  | cfbEnc n =>
    rcases execCfbEnc_cases n s with ⟨_, he⟩ | ⟨_, _, he⟩ | ⟨_, _, _, he⟩ | ⟨_, _, _, he⟩ <;>
      cases he.symm.trans h <;> simp
  | cfbDec n =>
    rcases execCfbDec_cases n s with ⟨_, he⟩ | ⟨_, _, he⟩ | ⟨_, _, _, he⟩ | ⟨_, _, _, he⟩ <;>
      cases he.symm.trans h <;> simp

end Sys2Proof.Machine
end

section
/-! PROOF. The statements about command words and mnemonics (30_encoding.md R64–R72, R76). -/

namespace Sys2Proof.Machine

/-- Settles O2: a word is its fields, and the fields of a command's word are that command's. -/
theorem decodeEncodeAgree : Obligations.DecodeEncodeAgree := by
  refine fun w i => ⟨fun h => ⟨wf_of_decode h, (eq_encode_of_decode h).symm⟩, ?_⟩
  rintro ⟨hwf, rfl⟩
  exact decode_encode hwf

/-- Settles O3: the reserved words are the ILLEGAL ones, and a command never raises IllegalCommand. -/
theorem reservedWordsRaiseIllegalCommand : Obligations.ReservedWordsRaiseIllegalCommand := by
  intro s w hp
  have hreserved := decode_illegal_iff w
  rw [← reserved_bit_set_iff, or_comm, or_assoc] at hreserved
  refine ⟨fun h => ?_, fun h => ?_⟩
  · obtain ⟨y, hy⟩ := hreserved.mpr h
    exact ⟨⟨y, hy⟩, complete_illegal hp hy⟩
  · obtain ⟨i, hi⟩ := decode_instr_of_not_illegal (mt hreserved.mp h)
    obtain ⟨t, ht⟩ := exec_next i s
    exact ⟨⟨i, hi⟩, t, (complete_instr hp hi).trans ht, exec_err_ne_illegalCommand ht⟩

/-- Settles O4, row by row, with LEN read from the fields. -/
theorem rowsMatchTheirMasks : Obligations.RowsMatchTheirMasks := by
  refine fun w => ⟨exists_decode_eq_row_iff 1 (fun _ => rfl) (fun _ => rfl) w,
    exists_decode_eq_row_iff 2 (fun _ => rfl) (fun _ => rfl) w,
    exists_decode_eq_row_iff 3 (fun _ => rfl) (fun _ => rfl) w,
    exists_decode_eq_row_iff 4 (fun _ => rfl) (fun _ => rfl) w,
    exists_decode_eq_row_iff 5 (fun _ => rfl) (fun _ => rfl) w,
    exists_decode_eq_row_iff 6 (fun _ => rfl) (fun _ => rfl) w, fun i h => ?_⟩
  obtain ⟨_, _, _, hlen⟩ := decode_instr_fields h
  rw [← hlen, fieldLen_toNat]

/-- Settles O5: the mnemonics assemble as their commands do, on both sides of 63. -/
theorem mnemonicsAssembleToOneWrite : Obligations.MnemonicsAssembleToOneWrite := by
  have hword {i : Instr} (h : i.len ≤ 63) : (assembleInstr i).map (fun w => [wr offCmd w]) =
      some [wr 0x000 (i.op.setWidth 32 ||| BitVec.ofNat 32 i.len <<< 8)] := by
    rw [assembleInstr_of_le h]; rfl
  have herror {i : Instr} (h : 63 < i.len) : (assembleInstr i).map (fun w => [wr offCmd w]) = none := by
    rw [assembleInstr_of_lt h]; rfl
  exact ⟨fun _ h => ⟨hword h, hword h, hword h, hword h, hword h, hword h⟩,
    fun _ h => ⟨herror h, herror h, herror h, herror h, herror h, herror h⟩, rfl, rfl, rfl, rfl, fun _ => rfl⟩

/-- Settles O1: each word of the table is decoded. -/
theorem writtenWordsDecode : Obligations.WrittenWordsDecode := by
  unfold Obligations.WrittenWordsDecode
  decide

end Sys2Proof.Machine
end

section
/-! SUPPORT. Runs of well-formed accesses on an idle core, and what the writes of a window's words leave in its buffer
(20_memory.md R44–R49; 30_encoding.md R73, R74). -/

namespace Sys2Proof.Machine

/-- No register shows the events to come. -/
theorem memRead_setEvents (off : Nat) (es : List Event) (s : State) : memRead off (setEvents es s) = memRead off s := by
  unfold memRead
  cases regOf off <;> rfl

/-- No register shows the host's record. -/
theorem memRead_record (off : Nat) (r : Response) (s : State) : memRead off (record r s) = memRead off s := by
  unfold memRead
  cases regOf off <;> rfl

/-- A write neither reads nor writes the events to come. -/
theorem memWrite_setEvents (off : Nat) (v : Word) (es : List Event) (s : State) :
    memWrite off v (setEvents es s) = setEvents es (memWrite off v s) := by
  unfold memWrite
  cases regOf off with
  | cmd => simp only [writeReg, accept, apply_ite (setEvents es)]; rfl
  | key k => simp only [writeReg, writeKey, apply_ite (setEvents es)]; rfl
  | din k => simp only [writeReg, writeDin, apply_ite (setEvents es)]; rfl
  | status | info | dout | fr | reserved => rfl

theorem permitted_setEvents (a : Access) (es : List Event) (s : State) :
    permitted a (setEvents es s) = setEvents es (permitted a s) := by
  cases a with
  | read w off => rw [permitted_read, permitted_read, memRead_setEvents]; rfl
  | write w off v => exact memWrite_setEvents off v es s

theorem malformed_eq_false {a : Access} (hw : a.width = 32) (ha : a.offset % 4 = 0) : a.malformed = false := by
  rw [Bool.eq_false_iff, Ne, malformed_iff, hw, ha]
  simp

/-- The accesses `as`, carried out one after another. -/
def permittedAll (as : List Access) (s : State) : State := as.foldl (fun t a => permitted a t) s

theorem permittedAll_append_singleton (as : List Access) (a : Access) (s : State) :
    permittedAll (as ++ [a]) s = permitted a (permittedAll as s) := by
  simp [permittedAll]

/-- Well-formed accesses in the window of a core that is not held in reset are carried out in order. -/
theorem run_permittedAll (as : List Access) {s : State} (hr : s.resetLine = false)
    (has : ∀ a ∈ as, a.offset < 0x100 ∧ a.malformed = false) :
    run as.length (setEvents (as.map Event.access) s) = .next (setEvents [] (permittedAll as s)) := by
  induction as generalizing s with
  | nil => rfl
  | cons a as ih =>
    obtain ⟨⟨ho, hm⟩, has⟩ := List.forall_mem_cons.mp has
    have hstep : handleEvent (.access a) (setEvents (as.map Event.access) s) =
        .next (setEvents (as.map Event.access) (permitted a s)) := by
      rw [handleEvent, hostAccess_permitted (s := setEvents (as.map Event.access) s) ho hm hr, permitted_setEvents]
    exact (run_event _ hstep).trans (ih ((permitted_hostKeeps a s).resetLine.trans hr) has)

/-- Accesses that leave the core idle are the whole run. -/
theorem runEvents_accesses {as : List Access} {s t : State} (hr : s.resetLine = false)
    (has : ∀ a ∈ as, a.offset < 0x100 ∧ a.malformed = false) (ht : permittedAll as s = t) (hb : t.busy = false) :
    runEvents (as.map Event.access) s = .next { t with events := [] } := by
  rw [runEvents, List.length_map, show 2 * as.length + 1 = as.length + (as.length + 1) by omega,
    run_add _ _ _ _ (run_permittedAll as hr has), ht]
  exact run_ended _ _ ⟨rfl, hb⟩

/-! ## Writing the words of a buffer -/

/-- The writes of words 0..m-1 of the bytes `bs` to a window whose word k is at `off k`. -/
def wordWrites (off : Nat → Nat) (bs : List Byte) (m : Nat) : List Access :=
  (List.range m).map fun k => .write 32 (off k) (paddedWord bs k)

/-- The window at `off` writes words of a buffer of n bytes, `put` being the state that holds a buffer. -/
def WritesWords {n : Nat} (off : Nat → Nat) (put : Vector Byte n → State) : Prop :=
  ∀ k, 4 * k + 3 < n → ∀ v b, ∃ b', memWrite (off k) v (put b) = put b' ∧
    ∀ (i : Nat) (hi : i < n), b'[i] = if i / 4 = k then laneByte v (i % 4) else b[i]

theorem writesWords_key {s : State} (hb : s.busy = false) :
    WritesWords offKey fun b => { s with keybuf := b } := by
  intro k hk v b
  let k' : Fin 8 := ⟨k, by omega⟩
  exact ⟨_, memWrite_key_idle k' v (s := { s with keybuf := b }) hb, setKeyWord_getElem b k' v⟩

theorem writesWords_din {s : State} (hb : s.busy = false) :
    WritesWords offDin fun b => { s with din := b } := by
  intro k hk v b
  let k' : Fin 4 := ⟨k, by omega⟩
  exact ⟨_, memWrite_din_idle k' v (s := { s with din := b }) hb, setBlockWord_getElem b k' v⟩

/-- Byte i of a list stands in lane i mod 4 of its word i div 4 (20_memory.md R47). -/
theorem laneByte_paddedWord (bs : List Byte) (i : Nat) :
    laneByte (paddedWord bs (i / 4)) (i % 4) = bs.getD i 0 := by
  obtain ⟨h0, h1, h2, h3⟩ := laneByte_packLanes (bs.getD (4 * (i / 4)) 0) (bs.getD (4 * (i / 4) + 1) 0)
    (bs.getD (4 * (i / 4) + 2) 0) (bs.getD (4 * (i / 4) + 3) 0)
  have hlt : i % 4 < 4 := Nat.mod_lt _ (by decide)
  conv_rhs => rw [← Nat.div_add_mod i 4]
  rw [paddedWord]
  interval_cases i % 4
  · exact h0
  · exact h1
  · exact h2
  · exact h3

/-- The first m words written hold the bytes, and the rest of the buffer keeps its own. -/
theorem permittedAll_wordWrites {n : Nat} {off : Nat → Nat} {put : Vector Byte n → State}
    (hput : WritesWords off put) (bs : List Byte) (b : Vector Byte n) {m : Nat} (hm : 4 * m ≤ n) :
    ∃ b', permittedAll (wordWrites off bs m) (put b) = put b' ∧
      ∀ (i : Nat) (hi : i < n), b'[i] = if i / 4 < m then bs.getD i 0 else b[i] := by
  induction m with
  | zero => exact ⟨b, rfl, fun i hi => by simp⟩
  | succ m ih =>
    obtain ⟨c, hc, hbytes⟩ := ih (by omega)
    obtain ⟨d, hd, hword⟩ := hput m (by omega) (paddedWord bs m) c
    have hwrites : wordWrites off bs (m + 1) = wordWrites off bs m ++ [.write 32 (off m) (paddedWord bs m)] := by
      simp [wordWrites, List.range_succ]
    refine ⟨d, by rw [hwrites, permittedAll_append_singleton, hc, permitted_write, hd], fun i hi => ?_⟩
    rw [hword, hbytes]
    by_cases hlast : i / 4 = m
    · rw [if_pos hlast, if_pos (by omega), ← hlast, laneByte_paddedWord]
    · rw [if_neg hlast]
      exact if_congr (by omega) rfl rfl

/-- The words of a window are at aligned offsets, so their writes are carried out. -/
theorem wordWrites_permitted {off : Nat → Nat} {m : Nat} (hoff : ∀ k < m, off k < 0x100 ∧ off k % 4 = 0)
    (bs : List Byte) : ∀ a ∈ wordWrites off bs m, a.offset < 0x100 ∧ a.malformed = false := by
  intro a ha
  obtain ⟨k, hk, rfl⟩ := List.mem_map.mp ha
  obtain ⟨ho, hal⟩ := hoff k (List.mem_range.mp hk)
  exact ⟨ho, malformed_eq_false rfl hal⟩

/-- Word k of a key is the word of its bytes 4k to 4k+3. -/
theorem keyWord_eq_paddedWord (k : Key) (i : Fin 8) : keyWord k i = paddedWord k.toList i.val := by
  have hbyte (j : Nat) (hj : j < 32) : k.toList.getD j 0 = k[j] := by simp [hj]
  rw [paddedWord, hbyte _ (by omega), hbyte _ (by omega), hbyte _ (by omega), hbyte _ (by omega)]
  rfl

theorem kzLoadKey_eq_wordWrites (k : Key) : kzLoadKey k = (wordWrites offKey k.toList 8).map Event.access := by
  simp only [kzLoadKey, keyWord_eq_paddedWord, wordWrites, List.map_map, ← List.map_coe_finRange_eq_range]
  rfl

theorem loadInBytes_eq_wordWrites (bs : List Byte) :
    loadInBytes bs = (wordWrites offDin bs ((bs.length + 3) / 4)).map Event.access := by
  rw [loadInBytes, wordWrites, List.map_map]
  rfl

/-! ## Reading the words of a window -/

/-- Reads only add their values to the host's record, the last one first. -/
theorem permittedAll_reads (offs : List Nat) (s : State) :
    permittedAll (offs.map (Access.read 32)) s =
      { s with seen := (offs.map fun off => .value off (memRead off s)).reverse ++ s.seen } := by
  induction offs generalizing s with
  | nil => rfl
  | cons off offs ih =>
    rw [List.map_cons, permittedAll, List.foldl_cons, permitted_read]
    refine (ih _).trans ?_
    simp only [memRead_record, List.map_cons, List.reverse_cons, List.append_assoc]
    rfl

/-- Reads at aligned offsets of the window are carried out and are the whole run. -/
theorem runEvents_reads {offs : List Nat} {s : State} (hr : s.resetLine = false) (hb : s.busy = false)
    (hoffs : ∀ off ∈ offs, off < 0x100 ∧ off % 4 = 0) :
    runEvents (offs.map rd) s = .next { s with
      events := [], seen := (offs.map fun off => .value off (memRead off s)).reverse ++ s.seen } := by
  have has : ∀ a ∈ offs.map (Access.read 32), a.offset < 0x100 ∧ a.malformed = false := by
    intro a ha
    obtain ⟨off, hmem, rfl⟩ := List.mem_map.mp ha
    obtain ⟨ho, hal⟩ := hoffs off hmem
    exact ⟨ho, malformed_eq_false rfl hal⟩
  have hrun := runEvents_accesses hr has (permittedAll_reads offs s) hb
  rwa [List.map_map] at hrun

end Sys2Proof.Machine
end

section
/-! PROOF. The pseudo-instructions on an idle core (30_encoding.md R74). -/

namespace Sys2Proof.Machine

section
variable {s : State} (hb : s.busy = false) (hr : s.resetLine = false)
include hb hr

theorem runEvents_kzLoadKey (k : Key) : runEvents (kzLoadKey k) s = .next { s with keybuf := k, events := [] } := by
  obtain ⟨b, hwrites, hbytes⟩ := permittedAll_wordWrites (writesWords_key hb) k.toList s.keybuf (m := 8) (by decide)
  have hk : b = k := by
    apply Vector.ext
    intro i hi
    rw [hbytes, if_pos (by omega)]
    simp [hi]
  subst hk
  rw [kzLoadKey_eq_wordWrites]
  exact runEvents_accesses hr (wordWrites_permitted (by decide) _) hwrites hb

theorem runEvents_loadInBytes (bs : List Byte) (hlen : bs.length ≤ 16) :
    ∃ d, runEvents (loadInBytes bs) s = .next { s with din := d, events := [] } ∧
      ∀ (i : Nat) (hi : i < 16), d[i] = if i / 4 < (bs.length + 3) / 4 then bs.getD i 0 else s.din[i] := by
  have hm : (bs.length + 3) / 4 ≤ 4 := by omega
  obtain ⟨d, hwrites, hbytes⟩ := permittedAll_wordWrites (writesWords_din hb) bs s.din (Nat.mul_le_mul_left 4 hm)
  have hoff : ∀ k < (bs.length + 3) / 4, offDin k < 0x100 ∧ offDin k % 4 = 0 := by
    intro k hk
    rw [offDin]
    omega
  rw [loadInBytes_eq_wordWrites]
  exact ⟨d, runEvents_accesses hr (wordWrites_permitted hoff bs) hwrites hb, hbytes⟩

theorem runEvents_kzClrOvr : runEvents kzClrOvr s = .next { s with ovr := false, events := [] } := by
  refine runEvents_accesses (as := [.write 32 offStatus 0x00000010]) (t := { s with ovr := false })
    hr (by decide) ?_ hb
  change writeStatus 0x00000010 s = { s with ovr := false }
  simp [writeStatus]

end

/-- The bytes that `kz.loadin B, m` puts in the words it writes: those of B, then zeros (30_encoding.md R74). -/
theorem getD_take_toList (b : Block) (m i : Nat) (hi : i < 16) :
    (b.toList.take m).getD i 0 = if i < m then b[i] else 0 := by
  by_cases h : i < m <;> simp [List.getD_eq_getElem?_getD, h, hi]

theorem runEvents_kzLoadIn {s : State} (hb : s.busy = false) (hr : s.resetLine = false) (b : Block) {m : Nat}
    (hm : m ≤ 16) :
    ∃ es d, kzLoadIn b m = some es ∧ es.length = (m + 3) / 4 ∧
      runEvents es s = .next { s with din := d, events := [] } ∧
      ∀ i : Fin 16, d[i] = if i.val < m then b[i] else if i.val / 4 < (m + 3) / 4 then 0 else s.din[i] := by
  have hlen : (b.toList.take m).length = m := by simp [hm]
  obtain ⟨d, hrun, hbytes⟩ := runEvents_loadInBytes hb hr (b.toList.take m) (by omega)
  refine ⟨_, d, if_pos hm, by simp [loadInBytes, hm], hrun, fun i => ?_⟩
  refine (hbytes i i.isLt).trans ?_
  rw [hlen, getD_take_toList b m i i.isLt]
  by_cases him : i.val < m
  · rw [if_pos him, if_pos (by omega), if_pos him]; rfl
  · rw [if_neg him, if_neg him]; rfl

/-- Settles O59: each expansion is a list of well-formed accesses, carried out in order. -/
theorem pseudoInstructionsExpand : Obligations.PseudoInstructionsExpand := by
  intro s hb hr
  refine ⟨runEvents_kzLoadKey hb hr, fun b m hm => runEvents_kzLoadIn hb hr b hm,
    fun b m hm => if_neg (Nat.not_le.mpr hm), runEvents_kzClrOvr hb hr, ?_, ?_⟩
  · refine (runEvents_reads (offs := [0x050, 0x054, 0x058, 0x05C]) hr hb (by decide)).trans ?_
    rw [← memRead_dout 0, ← memRead_dout 1, ← memRead_dout 2, ← memRead_dout 3]
    rfl
  · refine (runEvents_reads (offs := [0x060, 0x064, 0x068, 0x06C]) hr hb (by decide)).trans ?_
    rw [← memRead_fr 0, ← memRead_fr 1, ← memRead_fr 2, ← memRead_fr 3]
    rfl

end Sys2Proof.Machine
end

section
/-! SUPPORT. A byte as an element of GF(2)[x] modulo x^8 + x^7 + x^6 + x + 1 (40_primitives.md R77–R80). -/

namespace Sys2Proof.Machine

open Polynomial Finset

/-- The field polynomial p(x), 0x1C3 (R78). -/
noncomputable def fieldPoly : (ZMod 2)[X] := X ^ 8 + X ^ 7 + X ^ 6 + X + 1

theorem fieldPoly_natDegree : fieldPoly.natDegree = 8 := by
  unfold fieldPoly
  compute_degree!

theorem fieldPoly_monic : fieldPoly.Monic := by
  unfold fieldPoly
  monicity!

/-- The polynomial of a byte: bit i is the coefficient of x^i (R77). -/
noncomputable def bytePoly (b : Byte) : (ZMod 2)[X] := ∑ i ∈ range 8, if b.getLsbD i then X ^ i else 0

theorem bytePoly_coeff (b : Byte) (i : Nat) : (bytePoly b).coeff i = if b.getLsbD i then 1 else 0 := by
  have hterm (j : Nat) : (if b.getLsbD j then (X : (ZMod 2)[X]) ^ j else 0).coeff i =
      if i = j then (if b.getLsbD i then 1 else 0) else 0 := by
    by_cases hij : i = j
    · subst hij
      split <;> simp
    · split <;> simp [coeff_X_pow, hij]
  simp only [bytePoly, finsetSum_coeff, hterm, sum_ite_eq, mem_range]
  by_cases hi : i < 8
  · rw [if_pos hi]
  · rw [if_neg hi, BitVec.getLsbD_of_ge b i (by omega)]
    rfl

theorem bytePoly_injective : Function.Injective bytePoly := by
  intro a b h
  apply BitVec.eq_of_getLsbD_eq
  intro i _
  have hi := congrArg (coeff · i) h
  simp only [bytePoly_coeff] at hi
  cases ha : a.getLsbD i <;> cases hb : b.getLsbD i <;> simp_all

theorem bytePoly_degree_lt (b : Byte) : (bytePoly b).degree < fieldPoly.degree := by
  rw [degree_eq_natDegree fieldPoly_monic.ne_zero, fieldPoly_natDegree, degree_lt_iff_coeff_zero]
  intro i hi
  rw [bytePoly_coeff, BitVec.getLsbD_of_ge b i hi]
  rfl

/-- Field addition is exclusive-or (R80). -/
theorem bytePoly_xor (a b : Byte) : bytePoly (a ^^^ b) = bytePoly a + bytePoly b := by
  ext i
  simp only [coeff_add, bytePoly_coeff, BitVec.getLsbD_xor]
  cases a.getLsbD i <;> cases b.getLsbD i <;> decide

/-- A shift is a multiplication by x whose x^8 term, bit 7 of the byte, is lost. -/
theorem bytePoly_shiftLeft (a : Byte) :
    bytePoly (a <<< 1) + (if a.getLsbD 7 then X ^ 8 else 0) = X * bytePoly a := by
  ext i
  cases i with
  | zero => simp [bytePoly_coeff, apply_ite (coeff · 0)]
  | succ i =>
    rw [coeff_X_mul, coeff_add, bytePoly_coeff, bytePoly_coeff, apply_ite (coeff · (i + 1)), coeff_X_pow, coeff_zero,
      BitVec.getLsbD_shiftLeft]
    rcases Nat.lt_trichotomy i 7 with hi | rfl | hi
    · have h1 : i + 1 < 8 := by omega
      simp [h1, hi.ne]
    · simp
    · have h1 : ¬ i + 1 < 8 := by omega
      simp [h1, hi.ne', BitVec.getLsbD_of_ge a i hi]

theorem bytePoly_C3 : bytePoly 0xC3 = X ^ 7 + X ^ 6 + X + 1 := by
  simp [bytePoly, sum_range_succ]
  ring

/-- The ring GF(2)[x] / p(x), in which the bytes compute. -/
abbrev ByteRing := AdjoinRoot fieldPoly

/-- The class of a byte's polynomial. -/
noncomputable def residue (b : Byte) : ByteRing := AdjoinRoot.mk fieldPoly (bytePoly b)

theorem residue_injective : Function.Injective residue := by
  intro a b h
  apply bytePoly_injective
  rw [← (modByMonic_eq_self_iff fieldPoly_monic).mpr (bytePoly_degree_lt a),
    ← (modByMonic_eq_self_iff fieldPoly_monic).mpr (bytePoly_degree_lt b)]
  exact modByMonic_eq_of_dvd_sub fieldPoly_monic (AdjoinRoot.mk_eq_mk.mp h)

@[simp] theorem residue_xor (a b : Byte) : residue (a ^^^ b) = residue a + residue b := by
  rw [residue, bytePoly_xor, map_add, residue, residue]

theorem residue_zero : residue 0 = 0 := by
  simp [residue, bytePoly]

theorem residue_one : residue 1 = 1 := by
  simp [residue, bytePoly]

/-- Dropping the x^8 term is adding 0xC3 (R79). -/
theorem mk_X_pow_eight : AdjoinRoot.mk fieldPoly (X ^ 8) = residue 0xC3 := by
  rw [residue, AdjoinRoot.mk_eq_mk, bytePoly_C3, CharTwo.sub_eq_add, fieldPoly]
  simp only [add_assoc, dvd_refl]

/-- The doubling step of gmul (R79). -/
theorem residue_double (a : Byte) :
    residue (if a.getLsbD 7 then (a <<< 1) ^^^ 0xC3 else a <<< 1) = AdjoinRoot.root fieldPoly * residue a := by
  have hshift := congrArg (AdjoinRoot.mk fieldPoly) (bytePoly_shiftLeft a)
  rw [map_add, map_mul, AdjoinRoot.mk_X, apply_ite (AdjoinRoot.mk fieldPoly), map_zero, mk_X_pow_eight] at hshift
  rw [residue, residue, ← hshift]
  split
  · rw [bytePoly_xor, map_add, ← residue, ← residue]
  · rw [add_zero]

/-- After k iterations, p has gained a times the low k bits of b (R79). -/
theorem residue_gmulLoop (k : Nat) (p a b : Byte) :
    residue (gmulLoop k p a b) =
      residue p + residue a * ∑ i ∈ range k, if b.getLsbD i then AdjoinRoot.root fieldPoly ^ i else 0 := by
  induction k generalizing p a b with
  | zero => simp [gmulLoop]
  | succ k ih =>
    have hp : residue (if b.getLsbD 0 then p ^^^ a else p) =
        residue p + residue a * if b.getLsbD 0 then 1 else 0 := by
      split <;> simp
    have hb : ∑ i ∈ range k, (if b.getLsbD (i + 1) then AdjoinRoot.root fieldPoly ^ (i + 1) else 0) =
        AdjoinRoot.root fieldPoly *
          ∑ i ∈ range k, if (b >>> 1).getLsbD i then AdjoinRoot.root fieldPoly ^ i else 0 := by
      rw [mul_sum]
      refine sum_congr rfl fun i _ => ?_
      simp [pow_succ', Nat.add_comm 1 i]
    rw [gmulLoop, ih, residue_double, hp, sum_range_succ', hb, pow_zero]
    ring

@[simp] theorem residue_gmul (a b : Byte) : residue (gmul a b) = residue a * residue b := by
  rw [gmul, residue_gmulLoop, residue_zero, zero_add]
  simp only [residue, bytePoly, map_sum, apply_ite (AdjoinRoot.mk fieldPoly), map_pow, map_zero, AdjoinRoot.mk_X]

end Sys2Proof.Machine
end

section
/-! PROOF. gmul is the multiplication of the field of 40_primitives.md R77–R80. -/

namespace Sys2Proof.Machine

/-- gmul is the product of polynomials, reduced (R79). -/
theorem bytePoly_gmul (a b : Byte) : bytePoly (gmul a b) = (bytePoly a * bytePoly b) %ₘ fieldPoly := by
  have hmod : fieldPoly ∣ bytePoly (gmul a b) - bytePoly a * bytePoly b :=
    AdjoinRoot.mk_eq_mk.mp ((residue_gmul a b).trans (map_mul _ _ _).symm)
  rw [← Polynomial.modByMonic_eq_of_dvd_sub fieldPoly_monic hmod]
  exact ((Polynomial.modByMonic_eq_self_iff fieldPoly_monic).mpr (bytePoly_degree_lt _)).symm

/-- Settles O41: the residues of the two sides are equal, and gmul's is already reduced. -/
theorem gmulIsPolynomialProduct : Obligations.GmulIsPolynomialProduct := bytePoly_gmul

theorem gmul_comm (a b : Byte) : gmul a b = gmul b a :=
  residue_injective (by rw [residue_gmul, residue_gmul, mul_comm])

theorem gmul_assoc (a b c : Byte) : gmul (gmul a b) c = gmul a (gmul b c) :=
  residue_injective (by simp only [residue_gmul, mul_assoc])

theorem one_gmul (a : Byte) : gmul 1 a = a :=
  residue_injective (by rw [residue_gmul, residue_one, one_mul])

theorem zero_gmul (a : Byte) : gmul 0 a = 0 :=
  residue_injective (by rw [residue_gmul, residue_zero, zero_mul])

theorem gmul_xor (a b c : Byte) : gmul a (b ^^^ c) = gmul a b ^^^ gmul a c :=
  residue_injective (by simp only [residue_gmul, residue_xor, mul_add])

/-- Settles O40: the laws hold in the ring that the bytes' residues form. -/
theorem fieldMultiplicationLaws : Obligations.FieldMultiplicationLaws := fun a b c =>
  ⟨gmul_comm a b, gmul_assoc a b c, one_gmul a, zero_gmul a, gmul_xor a b c⟩

end Sys2Proof.Machine
end

section
/-! SUPPORT. Inverses of the field: every byte but 0 has one, so no product of two of them is 0. -/

namespace Sys2Proof.Machine

/-- `p²·a`: from a^n it makes a^(2n+1). -/
def squareTimes (a p : Byte) : Byte := gmul (gmul p p) a

/-- The twin of `squareTimes`. -/
def squareTimesNum (a p : Nat) : Nat := gmulNum 8 0 (gmulNum 8 0 p p) a

theorem iterate_squareTimes_toNat (k : Nat) (a p : Byte) :
    ((squareTimes a)^[k] p).toNat = (squareTimesNum a.toNat)^[k] p.toNat := by
  induction k generalizing p with
  | zero => rfl
  | succ k ih =>
    rw [Function.iterate_succ_apply, ih, Function.iterate_succ_apply, squareTimes, gmul, gmul, gmulLoop_toNat,
      gmulLoop_toNat]
    rfl

/-- The 255th power of every byte but 0 is 1: from a, seven times over, `squareTimes` makes a^255. -/
theorem iterate_squareTimesNum_eq_one : ∀ n : Fin 256, n ≠ 0 → (squareTimesNum n)^[7] n = 1 := by
  decide +kernel

theorem iterate_squareTimes_eq_one {a : Byte} (ha : a ≠ 0) : (squareTimes a)^[7] a = 1 := by
  apply BitVec.eq_of_toNat_eq
  rw [iterate_squareTimes_toNat]
  exact iterate_squareTimesNum_eq_one a.toFin (fun h => ha (BitVec.eq_of_toFin_eq h))

theorem exists_gmul_eq_one {a : Byte} (ha : a ≠ 0) : ∃ b, gmul b a = 1 :=
  ⟨_, (Function.iterate_succ_apply' (squareTimes a) 6 a).symm.trans (iterate_squareTimes_eq_one ha)⟩

theorem gmul_ne_zero {a b : Byte} (ha : a ≠ 0) (hb : b ≠ 0) : gmul a b ≠ 0 := by
  intro h
  obtain ⟨a', ha'⟩ := exists_gmul_eq_one ha
  have hzero : gmul (gmul a' a) b = 0 := by rw [gmul_assoc, h, gmul_comm, zero_gmul]
  rw [ha', one_gmul] at hzero
  exact hb hzero

end Sys2Proof.Machine
end

section
/-! SUPPORT. Linear maps of blocks (40_primitives.md R95), and the unit blocks that determine them. -/

namespace Sys2Proof.Machine

theorem scaleBlock_getElem (c : Byte) (b : Block) (i : Nat) (hi : i < 16) : (scaleBlock c b)[i] = gmul c b[i] := by
  simp [scaleBlock]

theorem zeroBlock_getElem (i : Nat) (hi : i < 16) : zeroBlock[i] = 0 := by
  simp [zeroBlock]

/-- The block that is 1 at byte j and 0 elsewhere. -/
def unitBlock (j : Nat) : Block := Vector.ofFn fun i => if i.val = j then 1 else 0

theorem unitBlock_getElem (j i : Nat) (hi : i < 16) : (unitBlock j)[i] = if i = j then 1 else 0 := by
  simp [unitBlock]

theorem scaleBlock_zero (b : Block) : scaleBlock 0 b = zeroBlock := by
  apply Vector.ext
  intro i hi
  rw [scaleBlock_getElem _ _ _ hi, zero_gmul, zeroBlock_getElem _ hi]

theorem scaleBlock_unitBlock_getElem (c : Byte) (j i : Nat) (hi : i < 16) :
    (scaleBlock c (unitBlock j))[i] = if i = j then c else 0 := by
  rw [scaleBlock_getElem _ _ _ hi, unitBlock_getElem _ _ hi, gmul_comm]
  split
  · rw [one_gmul]
  · rw [zero_gmul]

/-- Changing one byte by `c` adds `c` times its unit block. -/
theorem set_xor_eq_xorBlock (b : Block) (j : Fin 16) (c : Byte) :
    b.set j (b[j] ^^^ c) = xorBlock b (scaleBlock c (unitBlock j)) := by
  apply Vector.ext
  intro i hi
  rw [Vector.getElem_set, xorBlock_getElem _ _ _ hi, scaleBlock_unitBlock_getElem _ _ _ hi]
  by_cases h : j.val = i
  · subst h
    simp
  · simp [h, Ne.symm h]

/-- Additive, and compatible with the scaling of every byte (R95). -/
structure IsLinear (f : Block → Block) : Prop where
  xor (a b : Block) : f (xorBlock a b) = xorBlock (f a) (f b)
  scale (c : Byte) (b : Block) : f (scaleBlock c b) = scaleBlock c (f b)

/-- The same for a function of a block to a byte. -/
structure IsLinearForm (φ : Block → Byte) : Prop where
  xor (a b : Block) : φ (xorBlock a b) = φ a ^^^ φ b
  scale (c : Byte) (b : Block) : φ (scaleBlock c b) = gmul c (φ b)

theorem isLinearForm_byte (i : Nat) (hi : i < 16) : IsLinearForm fun b => b[i] where
  xor a b := xorBlock_getElem a b i hi
  scale c b := scaleBlock_getElem c b i hi

namespace IsLinear

variable {f g : Block → Block}

theorem of_bytes (h : ∀ (i : Nat) (hi : i < 16), IsLinearForm fun b => (f b)[i]) : IsLinear f where
  xor a b := Vector.ext fun i hi => ((h i hi).xor a b).trans (xorBlock_getElem _ _ i hi).symm
  scale c b := Vector.ext fun i hi => ((h i hi).scale c b).trans (scaleBlock_getElem _ _ i hi).symm

theorem map_zero (hf : IsLinear f) : f zeroBlock = zeroBlock := by
  rw [← scaleBlock_zero zeroBlock, hf.scale, scaleBlock_zero, scaleBlock_zero]

theorem iterate (hf : IsLinear f) (k : Nat) : IsLinear f^[k] where
  xor a b := by
    induction k generalizing a b with
    | zero => rfl
    | succ k ih => simp only [Function.iterate_succ_apply, hf.xor, ih]
  scale c b := by
    induction k generalizing b with
    | zero => rfl
    | succ k ih => simp only [Function.iterate_succ_apply, hf.scale, ih]

theorem comp (hf : IsLinear f) (hg : IsLinear g) : IsLinear fun b => f (g b) where
  xor a b := by rw [hg.xor, hf.xor]
  scale c b := by rw [hg.scale, hf.scale]

theorem map_set_xor (hf : IsLinear f) (b : Block) (j : Fin 16) (c : Byte) :
    f (b.set j (b[j] ^^^ c)) = xorBlock (f b) (scaleBlock c (f (unitBlock j))) := by
  rw [set_xor_eq_xorBlock, hf.xor, hf.scale]

end IsLinear

/-- The first `k` bytes of a block, then zeros. -/
def firstBytes (k : Nat) (b : Block) : Block := Vector.ofFn fun i => if i.val < k then b[i] else 0

theorem firstBytes_getElem (k : Nat) (b : Block) (i : Nat) (hi : i < 16) :
    (firstBytes k b)[i] = if i < k then b[i] else 0 := by
  simp [firstBytes]

theorem firstBytes_zero (b : Block) : firstBytes 0 b = zeroBlock := by
  apply Vector.ext
  intro i hi
  rw [firstBytes_getElem _ _ _ hi, zeroBlock_getElem _ hi, if_neg (Nat.not_lt_zero i)]

theorem firstBytes_succ {k : Nat} (hk : k < 16) (b : Block) :
    firstBytes (k + 1) b = xorBlock (firstBytes k b) (scaleBlock b[k] (unitBlock k)) := by
  apply Vector.ext
  intro i hi
  rw [xorBlock_getElem _ _ _ hi, firstBytes_getElem _ _ _ hi, firstBytes_getElem _ _ _ hi,
    scaleBlock_unitBlock_getElem _ _ _ hi]
  rcases Nat.lt_trichotomy i k with h | rfl | h
  · simp [h, h.ne, Nat.lt_succ_of_lt h]
  · simp
  · simp [h.ne', Nat.not_lt_of_gt h, Nat.not_lt.mpr (Nat.succ_le_of_lt h)]

theorem firstBytes_all (b : Block) : firstBytes 16 b = b := by
  apply Vector.ext
  intro i hi
  rw [firstBytes_getElem _ _ _ hi, if_pos hi]

/-- Two linear maps that agree on the unit blocks are the same: by induction on the bytes they are given. -/
theorem IsLinear.eq_of_unitBlock {f g : Block → Block} (hf : IsLinear f) (hg : IsLinear g)
    (h : ∀ j < 16, f (unitBlock j) = g (unitBlock j)) (b : Block) : f b = g b := by
  have hfirst (k : Nat) (hk : k ≤ 16) : f (firstBytes k b) = g (firstBytes k b) := by
    induction k with
    | zero => rw [firstBytes_zero, hf.map_zero, hg.map_zero]
    | succ k ih =>
      rw [firstBytes_succ (by omega), hf.xor, hg.xor, hf.scale, hg.scale, ih (by omega), h k (by omega)]
  rw [← firstBytes_all b]
  exact hfirst 16 le_rfl

end Sys2Proof.Machine
end

section
/-! SUPPORT. A row of coefficients times a block is a sum of products in the field; ℓ, R, R⁻¹ and every matrix are linear
(40_primitives.md R86–R98). -/

namespace Sys2Proof.Machine

/-- The exclusive-or of byte products, over lists: a missing coefficient counts as 0. -/
theorem residue_foldl_xor (row l : List Byte) (acc : Byte) :
    residue ((List.zipWith gmul row l).foldl (· ^^^ ·) acc) =
      residue acc + ∑ j ∈ Finset.range l.length, residue (row.getD j 0) * residue (l.getD j 0) := by
  induction row generalizing l acc with
  | nil => simp only [List.zipWith_nil_left, List.foldl_nil, List.getD_nil, residue_zero, zero_mul, Finset.sum_const_zero,
      add_zero]
  | cons x row ih =>
    cases l with
    | nil => simp
    | cons y l =>
      rw [List.zipWith_cons_cons, List.foldl_cons, ih, residue_xor, residue_gmul, List.length_cons, Finset.sum_range_succ']
      simp only [List.getD_cons_succ, List.getD_cons_zero]
      ring

theorem residue_dot (row : List Byte) (b : Block) :
    residue (dot row b) = ∑ j : Fin 16, residue (row.getD j 0) * residue b[j] := by
  rw [dot, residue_foldl_xor, residue_zero, zero_add, Vector.length_toList, Finset.sum_range]
  refine Finset.sum_congr rfl fun j _ => ?_
  simp

theorem isLinearForm_dot (row : List Byte) : IsLinearForm (dot row) where
  xor a b := by
    apply residue_injective
    simp only [residue_xor, residue_dot, Fin.getElem_fin, xorBlock_getElem, mul_add, Finset.sum_add_distrib]
  scale c b := by
    apply residue_injective
    simp only [residue_gmul, residue_dot, Fin.getElem_fin, scaleBlock_getElem, Finset.mul_sum, mul_left_comm]

theorem dot_unitBlock (row : List Byte) {j : Nat} (hj : j < 16) : dot row (unitBlock j) = row.getD j 0 := by
  apply residue_injective
  have hterm (i : Fin 16) : residue (row.getD i 0) * residue (unitBlock j)[i] =
      if i = ⟨j, hj⟩ then residue (row.getD j 0) else 0 := by
    rw [Fin.getElem_fin, unitBlock_getElem]
    by_cases h : i.val = j
    · subst h
      rw [if_pos rfl, if_pos rfl, residue_one, mul_one]
    · rw [if_neg h, if_neg (fun he => h (congrArg Fin.val he)), residue_zero, mul_zero]
  simp only [residue_dot, hterm, Finset.sum_ite_eq', Finset.mem_univ, if_true]

theorem matApply_getElem (rows : List (List Byte)) (b : Block) (i : Nat) (hi : i < 16) :
    (matApply rows b)[i] = dot (rows.getD i []) b := by
  simp [matApply]

theorem matApply_unitBlock_getElem (rows : List (List Byte)) {j : Nat} (hj : j < 16) (i : Nat) (hi : i < 16) :
    (matApply rows (unitBlock j))[i] = tableAt rows i j := by
  rw [matApply_getElem _ _ _ hi, dot_unitBlock _ hj, tableAt]

theorem isLinear_matApply (rows : List (List Byte)) : IsLinear (matApply rows) := by
  apply IsLinear.of_bytes
  intro i hi
  simpa only [matApply_getElem] using isLinearForm_dot (rows.getD i [])

theorem isLinear_shiftR : IsLinear shiftR := by
  apply IsLinear.of_bytes
  rintro (_ | i) hi
  · simp only [shiftR_zero]
    exact isLinearForm_dot lc
  · simpa only [shiftR_succ] using isLinearForm_byte i (by omega)

theorem shiftRInv_getElem (b : Block) (i : Nat) (hi : i < 16) :
    (shiftRInv b)[i] = if i = 15 then ell (rotate b) else b[(i + 1) % 16] := by
  simp [shiftRInv]

theorem rotate_getElem (b : Block) (i : Nat) (hi : i < 16) : (rotate b)[i] = b[(i + 1) % 16] := by
  simp [rotate]

theorem isLinear_rotate : IsLinear rotate := by
  apply IsLinear.of_bytes
  intro i hi
  simpa only [rotate_getElem] using isLinearForm_byte ((i + 1) % 16) (by omega)

theorem rotate_injective : Function.Injective rotate := by
  intro a b h
  apply Vector.ext
  intro i hi
  have hbyte : (rotate a)[(i + 15) % 16] = (rotate b)[(i + 15) % 16] := by rw [h]
  simpa only [rotate_getElem, show ((i + 15) % 16 + 1) % 16 = i by omega] using hbyte

/-- The block with its last byte replaced by ℓ of the whole: what R and R⁻¹ do but for the rotation (R87, R89). -/
def feedback (b : Block) : Block := b.set 15 (ell b)

theorem feedback_getElem (b : Block) (i : Nat) (hi : i < 16) :
    (feedback b)[i] = if i = 15 then ell b else b[i] := by
  simp [feedback, Vector.getElem_set, eq_comm]

theorem isLinear_feedback : IsLinear feedback := by
  apply IsLinear.of_bytes
  intro i hi
  simp only [feedback_getElem]
  split
  · exact isLinearForm_dot lc
  · exact isLinearForm_byte i hi

theorem rotate_shiftR (b : Block) : rotate (shiftR b) = feedback b := by
  apply Vector.ext
  intro i hi
  rw [rotate_getElem _ _ hi, feedback_getElem _ _ hi]
  by_cases h : i = 15
  · subst h
    exact shiftR_zero b
  · simp only [Nat.mod_eq_of_lt (show i + 1 < 16 by omega), shiftR_succ, if_neg h]

theorem shiftRInv_eq_feedback (b : Block) : shiftRInv b = feedback (rotate b) := by
  apply Vector.ext
  intro i hi
  rw [shiftRInv_getElem _ _ hi, feedback_getElem _ _ hi, rotate_getElem _ _ hi]

theorem isLinear_shiftRInv : IsLinear shiftRInv := by
  rw [funext shiftRInv_eq_feedback]
  exact isLinear_feedback.comp isLinear_rotate

theorem isLinear_lin : IsLinear lin := isLinear_shiftR.iterate 16

theorem isLinear_linInv : IsLinear linInv := isLinear_shiftRInv.iterate 16

/-- LC[15] = 1, so ℓ moves by what the last byte moves (R85). -/
theorem ell_set_last (b : Block) (c : Byte) : ell (b.set 15 (b[15] ^^^ c)) = ell b ^^^ c := by
  have hset : b.set 15 (b[15] ^^^ c) = xorBlock b (scaleBlock c (unitBlock 15)) := set_xor_eq_xorBlock b 15 c
  have hlast : dot lc (unitBlock 15) = 1 := dot_unitBlock lc (by decide)
  rw [hset, ell, (isLinearForm_dot lc).xor, (isLinearForm_dot lc).scale, hlast, gmul_comm, one_gmul, ell]

theorem ell_feedback (b : Block) : ell (feedback b) = b[15] := by
  have h := ell_set_last b (b[15] ^^^ ell b)
  rw [← BitVec.xor_assoc, BitVec.xor_self, BitVec.zero_xor] at h
  rw [feedback, h, BitVec.xor_comm, BitVec.xor_assoc, BitVec.xor_self, BitVec.xor_zero]

theorem feedback_feedback (b : Block) : feedback (feedback b) = b := by
  apply Vector.ext
  intro i hi
  rw [feedback_getElem _ _ hi, feedback_getElem _ _ hi, ell_feedback]
  by_cases h : i = 15
  · subst h
    rfl
  · rw [if_neg h, if_neg h]

theorem shiftRInv_shiftR (b : Block) : shiftRInv (shiftR b) = b := by
  rw [shiftRInv_eq_feedback, rotate_shiftR, feedback_feedback]

theorem shiftR_shiftRInv (b : Block) : shiftR (shiftRInv b) = b := by
  apply rotate_injective
  rw [rotate_shiftR, shiftRInv_eq_feedback, feedback_feedback]

theorem linInv_lin (b : Block) : linInv (lin b) = b := Function.LeftInverse.iterate shiftRInv_shiftR 16 b

theorem lin_linInv (b : Block) : lin (linInv b) = b := Function.LeftInverse.iterate shiftR_shiftRInv 16 b

/-! ## The printed matrices -/

/-- Column j of a table, as numbers. -/
def columnNum (rows : List (List Byte)) (j : Nat) : List Nat := (List.range 16).map fun i => (tableAt rows i j).toNat

theorem nums_matApply_unitBlock (rows : List (List Byte)) {j : Nat} (hj : j < 16) :
    nums (matApply rows (unitBlock j)) = columnNum rows j := by
  apply List.ext_getElem
  · simp [nums_length, columnNum]
  · intro i h1 h2
    rw [nums_length] at h1
    rw [nums_getElem _ i h1, matApply_unitBlock_getElem _ hj _ h1]
    simp [columnNum]

theorem shiftsNum_unitBlock : ∀ j < 16, shiftsNum 16 (nums (unitBlock j)) = columnNum matRows j := by
  decide +kernel

theorem unshiftsNum_unitBlock : ∀ j < 16, unshiftsNum 16 (nums (unitBlock j)) = columnNum matInvRows j := by
  decide +kernel

theorem lin_eq_matApply (b : Block) : lin b = matApply matRows b := by
  refine isLinear_lin.eq_of_unitBlock (isLinear_matApply matRows) (fun j hj => nums_injective _ _ ?_) b
  rw [nums_lin, nums_matApply_unitBlock _ hj, shiftsNum_unitBlock j hj]

theorem linInv_eq_matApply (b : Block) : linInv b = matApply matInvRows b := by
  refine isLinear_linInv.eq_of_unitBlock (isLinear_matApply matInvRows) (fun j hj => nums_injective _ _ ?_) b
  rw [nums_linInv, nums_matApply_unitBlock _ hj, unshiftsNum_unitBlock j hj]

end Sys2Proof.Machine
end

section
/-! PROOF. The substitution and linear layers (40_primitives.md R81–R98; 41_key_schedule.md R100). -/

namespace Sys2Proof.Machine

theorem piInv_pi : ∀ x : Byte, piInv (pi x) = x := by
  decide +kernel

theorem pi_piInv : ∀ x : Byte, pi (piInv x) = x := by
  decide +kernel

theorem pi_ne_self : ∀ x : Byte, pi x ≠ x := by
  decide +kernel

/-- Settles O36, by evaluating both tables at every byte. -/
theorem substitutionTablesAreInverse : Obligations.SubstitutionTablesAreInverse := fun x =>
  ⟨piInv_pi x, pi_piInv x, pi_ne_self x⟩

theorem subInv_sub (b : Block) : subInv (sub b) = b := by
  apply Vector.ext
  intro i hi
  rw [subInv_getElem _ _ hi, sub_getElem _ _ hi, piInv_pi]

theorem sub_subInv (b : Block) : sub (subInv b) = b := by
  apply Vector.ext
  intro i hi
  rw [sub_getElem _ _ hi, subInv_getElem _ _ hi, pi_piInv]

/-- Settles O37: S byte by byte, and L by undoing its 16 shifts. -/
theorem layersInvert : Obligations.LayersInvert := fun b =>
  ⟨subInv_sub b, sub_subInv b, linInv_lin b, lin_linInv b⟩

theorem sub_zeroBlock : sub zeroBlock = Vector.replicate 16 0xfc := by
  apply Vector.ext
  intro i hi
  rw [sub_getElem _ _ hi, zeroBlock_getElem _ hi, Vector.getElem_replicate]
  rfl

/-- Settles O38: one shift is linear in either direction, so 16 are. -/
theorem linearLayerIsLinear : Obligations.LinearLayerIsLinear :=
  ⟨fun a b => ⟨isLinear_lin.xor a b, isLinear_linInv.xor a b⟩, isLinear_lin.map_zero, isLinear_linInv.map_zero,
    fun c b => ⟨isLinear_lin.scale c b, isLinear_linInv.scale c b⟩, sub_zeroBlock⟩

/-- Settles O39: both forms are linear and agree on the unit blocks. -/
theorem linearLayerIsItsMatrix : Obligations.LinearLayerIsItsMatrix := fun b =>
  ⟨lin_eq_matApply b, linInv_eq_matApply b⟩

theorem xorBlock_vec (i j : Nat) : xorBlock (vec i) (vec j) = vec (i ^^^ j) := by
  apply Vector.ext
  intro k hk
  rw [xorBlock_getElem _ _ _ hk, vec_getElem _ _ hk, vec_getElem _ _ hk, vec_getElem _ _ hk]
  split
  · rw [BitVec.ofNat_xor]
  · rfl

/-- Settles O44, by the additivity of L. -/
theorem roundConstantsAddLinearly : Obligations.RoundConstantsAddLinearly := fun i j => by
  rw [roundConst, roundConst, ← isLinear_lin.xor, xorBlock_vec]

/-- A linear map whose matrix has no zero entry at (i, j) passes a change of byte j on to byte i. -/
theorem matApply_set_ne (rows : List (List Byte)) (i j : Fin 16) (hij : tableAt rows i j ≠ 0) (b : Block) {c : Byte}
    (hc : c ≠ 0) : (matApply rows (b.set j (b[j] ^^^ c)))[i] ≠ (matApply rows b)[i] := by
  have hdiff : (matApply rows (b.set j (b[j] ^^^ c)))[i] = (matApply rows b)[i] ^^^ gmul c (tableAt rows i j) := by
    rw [(isLinear_matApply rows).map_set_xor]
    simp only [Fin.getElem_fin, xorBlock_getElem, scaleBlock_getElem, matApply_unitBlock_getElem rows j.isLt]
  rw [hdiff]
  exact fun h => gmul_ne_zero hc hij (by simpa using h)

theorem matRows_ne_zero : ∀ i j : Fin 16, tableAt matRows i j ≠ 0 := by
  decide

theorem matInvRows_ne_zero : ∀ i j : Fin 16, tableAt matInvRows i j ≠ 0 := by
  decide

/-- Settles O45: the lanes byte by byte, the diffusion because the printed matrices have no zero entry. -/
theorem lanesAndDiffusion : Obligations.LanesAndDiffusion := by
  refine ⟨fun a b k i h => ?_, fun b i j c hc => ⟨?_, ?_⟩⟩
  · simp only [Fin.getElem_fin] at h ⊢
    simp only [sub_getElem, subInv_getElem, xorBlock_getElem, h, and_self]
  · simpa only [lin_eq_matApply] using matApply_set_ne matRows i j (matRows_ne_zero i j) b hc
  · simpa only [linInv_eq_matApply] using matApply_set_ne matInvRows i j (matInvRows_ne_zero i j) b hc

end Sys2Proof.Machine
end

section
/-! SUPPORT. The round keys pair by pair, and a Feistel iteration undone (41_key_schedule.md R101, R102). -/

namespace Sys2Proof.Machine

theorem xorBlock_comm (a b : Block) : xorBlock a b = xorBlock b a := by
  apply Vector.ext
  intro i hi
  rw [xorBlock_getElem _ _ _ hi, xorBlock_getElem _ _ _ hi, BitVec.xor_comm]

@[simp] theorem xorBlock_cancel_left (a b : Block) : xorBlock a (xorBlock a b) = b := by
  apply Vector.ext
  intro i hi
  rw [xorBlock_getElem _ _ _ hi, xorBlock_getElem _ _ _ hi, ← BitVec.xor_assoc, BitVec.xor_self, BitVec.zero_xor]

/-- "`(a1, a0) = (b0, b1 ⊕ LSX[C](b0))` when `(b1, b0) = F[C](a1, a0)`" (R101). -/
def feistelInv (c : Block) (q : Block × Block) : Block × Block := (q.2, xorBlock q.1 (lsx c q.2))

theorem feistelInv_feistel (c : Block) (p : Block × Block) : feistelInv c (feistel c p) = p :=
  Prod.ext rfl ((xorBlock_comm _ _).trans (xorBlock_cancel_left _ _))

theorem feistel_feistelInv (c : Block) (q : Block × Block) : feistel c (feistelInv c q) = q := by
  rw [feistelInv, feistel, xorBlock_comm q.1, xorBlock_cancel_left]

/-- `RK[2j+1]` and `RK[2j+2]` are the pair after group j (R102). -/
theorem schedule_pair (k : Key) (j : Nat) (hj : j < 5) :
    ((schedule k)[2 * j], (schedule k)[2 * j + 1]) = keyPair k j := by
  have hodd : (2 * j + 1) / 2 = j := by omega
  simp [schedule, hodd]

theorem schedule_zero (k : Key) : (schedule k)[0] = keyFirst k :=
  congrArg Prod.fst (schedule_pair k 0 (by decide))

theorem schedule_one (k : Key) : (schedule k)[1] = keySecond k :=
  congrArg Prod.snd (schedule_pair k 0 (by decide))

/-- RK[1] and RK[2] byte by byte: the key's halves (R102). -/
theorem schedule_halves (k : Key) (i : Fin 16) :
    (schedule k)[0][i] = k[i.val] ∧ (schedule k)[1][i] = k[16 + i.val] := by
  rw [schedule_zero, schedule_one]
  exact ⟨keyFirst_getElem k i i.isLt, keySecond_getElem k i i.isLt⟩

/-- Group j + 1 runs iterations 8j + 1 to 8j + 8, each with its own round constant (R102). -/
theorem keyPair_succ (k : Key) (j : Nat) :
    keyPair k (j + 1) = (List.range 8).foldl (fun p t => feistel (roundConst (8 * j + t + 1)) p) (keyPair k j) := rfl

end Sys2Proof.Machine
end

section
/-! PROOF. The key schedule and KEY_INIT (41_key_schedule.md R101–R106). -/

namespace Sys2Proof.Machine

/-- Settles O43, by the inverse of an iteration on either side. -/
theorem feistelIterationIsInvertible : Obligations.FeistelIterationIsInvertible := by
  refine fun c a1 a0 => ⟨rfl, fun b1 b0 h => ?_, feistelInv c (a1, a0), feistel_feistelInv c _⟩
  rw [← feistelInv_feistel c (a1, a0), h, feistelInv]

/-- Settles O9: the halves are the pair before any group, and each group leads from its pair to the next. -/
theorem roundKeysFollowTheSchedule : Obligations.RoundKeysFollowTheSchedule := by
  refine fun k => ⟨schedule_halves k, fun j => ?_⟩
  rw [schedule_pair k j (by omega)]
  exact (schedule_pair k (j + 1) (by omega)).trans (keyPair_succ k j)

theorem exec_keyInit_32 (s : State) :
    exec (.keyInit 32) s = .next (finish 0 (bindKey (schedule s.keybuf) s)) := by
  obtain ⟨hn, _⟩ | ⟨_, h⟩ := execKeyInit_cases 32 s
  · exact absurd rfl hn
  · exact h

theorem exec_keyInit_of_ne {n : Nat} (hn : n ≠ 32) (s : State) : exec (.keyInit n) s = .next (finish 1 s) := by
  obtain ⟨_, h⟩ | ⟨h32, _⟩ := execKeyInit_cases n s
  · exact h
  · exact absurd h32 hn

/-- Settles O8, from the outcome of KEY_INIT at 32 bytes and at any other length. -/
theorem keyInitCompletes : Obligations.KeyInitCompletes := by
  refine fun s => ⟨?_, fun n hn => ?_⟩
  · rw [exec_keyInit_32, finish, bindKey]
  · rw [exec_keyInit_of_ne hn, finish]

/-- The one command that writes RK is a KEY_INIT that succeeds (R106). -/
theorem CommandEffect.rk_kept_or_bound {i : Instr} {s t : State} (h : CommandEffect s i t) :
    t.rk = s.rk ∨ i = .keyInit 32 ∧ t.err = 0 := by
  cases h with
  | raised | blockOut | modeStarted => exact .inl rfl
  | keyBound => exact .inr ⟨rfl, rfl⟩
  | chunkOut _ n ct out _ hn =>
    obtain ⟨hrk, _⟩ := chunk_keeps n ct (setDout out s) hn
    exact .inl hrk

theorem complete_rk {s t : State} (h : complete s = .next t) :
    t.rk = s.rk ∨ s.pend = some (encode (.keyInit 32)) ∧ t.err = 0 := by
  obtain ⟨w, hp, ⟨i, hd, he⟩ | ⟨_, _, rfl⟩⟩ := complete_effect h
  · refine he.rk_kept_or_bound.imp_right ?_
    rintro ⟨rfl, herr⟩
    exact ⟨pend_eq_encode ⟨w, hp, hd⟩, herr⟩
  · exact .inl rfl

/-- A step keeps RK, asserts reset, or completes a KEY_INIT that succeeds (R106). -/
theorem step_rk {s t : State} (h : step s = .next t) :
    t.rk = s.rk ∨ (∃ es, s.events = .resetAssert :: es) ∨
      (s.busy = true ∧ s.pend = some (encode (.keyInit 32)) ∧ t.err = 0) := by
  cases step_effect h with
  | completes es hb _ _ h => exact (complete_rk h).imp_right fun hbound => .inr ⟨hb, hbound⟩
  | idles _ ht => exact .inl (ht ▸ rfl)
  | accessed a h => exact .inl (hostAccess_hostKeeps h).rk
  | resetAsserted es hes => exact .inr (.inl ⟨es, hes⟩)
  | resetReleased _ _ ht => exact .inl (ht ▸ rfl)

/-- Settles O17: KEY_INIT's round keys begin with the key's halves, and a step that does not keep RK is one of the two. -/
theorem onlyKeyInitOrResetChangesRoundKeys : Obligations.OnlyKeyInitOrResetChangesRoundKeys := by
  refine ⟨fun s t h i => ?_, fun s t h hne => (step_rk h).resolve_left hne⟩
  cases (exec_keyInit_32 s).symm.trans h
  exact schedule_halves s.keybuf i

end Sys2Proof.Machine
end

section
/-! SUPPORT. A full round and its inverse, and both transforms over the nine full rounds (42_block_transform.md R109, R110, R113). -/

namespace Sys2Proof.Machine

/-- A full round undone: `RK ⊕ S⁻¹(L⁻¹(a))`, the round that DEC_BLOCK runs (R110). -/
def lsxInv (k b : Block) : Block := xorBlock k (subInv (linInv b))

@[simp] theorem lsxInv_lsx (k b : Block) : lsxInv k (lsx k b) = b := by
  rw [lsxInv, lsx, linInv_lin, subInv_sub, xorBlock_cancel_left]

@[simp] theorem lsx_lsxInv (k b : Block) : lsx k (lsxInv k b) = b := by
  rw [lsxInv, lsx, xorBlock_cancel_left, sub_subInv, lin_linInv]

/-- The full rounds of ENC_BLOCK with the keys `ks` in order (R109). -/
def rounds (ks : List Block) (b : Block) : Block := ks.foldl (fun a k => lsx k a) b

/-- The rounds of DEC_BLOCK, the last of the keys `ks` first (R110). -/
def roundsInv (ks : List Block) (b : Block) : Block := ks.foldr lsxInv b

@[simp] theorem rounds_cons (k : Block) (ks : List Block) (b : Block) : rounds (k :: ks) b = rounds ks (lsx k b) := by
  rw [rounds, List.foldl_cons, rounds]

@[simp] theorem roundsInv_cons (k : Block) (ks : List Block) (b : Block) :
    roundsInv (k :: ks) b = lsxInv k (roundsInv ks b) := rfl

theorem encrypt_eq_rounds (rk : Vector Block 10) (b : Block) :
    encrypt rk b = xorBlock rk[9] (rounds (fullRoundKeys rk) b) := rfl

theorem decrypt_eq_roundsInv (rk : Vector Block 10) (b : Block) :
    decrypt rk b = roundsInv (fullRoundKeys rk) (xorBlock rk[9] b) := List.foldl_reverse

@[simp] theorem roundsInv_rounds (ks : List Block) (b : Block) : roundsInv ks (rounds ks b) = b := by
  induction ks generalizing b with
  | nil => rfl
  | cons k ks ih => rw [rounds_cons, roundsInv_cons, ih, lsxInv_lsx]

@[simp] theorem rounds_roundsInv (ks : List Block) (b : Block) : rounds ks (roundsInv ks b) = b := by
  induction ks with
  | nil => rfl
  | cons k ks ih => rw [roundsInv_cons, rounds_cons, lsx_lsxInv, ih]

theorem decrypt_encrypt (rk : Vector Block 10) (b : Block) : decrypt rk (encrypt rk b) = b := by
  rw [decrypt_eq_roundsInv, encrypt_eq_rounds, xorBlock_cancel_left, roundsInv_rounds]

theorem encrypt_decrypt (rk : Vector Block 10) (b : Block) : encrypt rk (decrypt rk b) = b := by
  rw [encrypt_eq_rounds, decrypt_eq_roundsInv, rounds_roundsInv, xorBlock_cancel_left]

/-- A sequence of blocks that follows the rounds ends where they do. -/
theorem rounds_of_sequence (ks : List Block) (a : Nat → Block)
    (h : ∀ (i : Nat) (hi : i < ks.length), a (i + 1) = lsx ks[i] (a i)) : rounds ks (a 0) = a ks.length := by
  induction ks generalizing a with
  | nil => rfl
  | cons k ks ih =>
    have h0 : a 1 = lsx k (a 0) := h 0 (Nat.succ_pos _)
    rw [rounds_cons, ← h0]
    exact ih (fun i => a (i + 1)) fun i hi => h (i + 1) (Nat.succ_lt_succ hi)

/-- The recurrence of R109 gives the ciphertext. -/
theorem encrypt_of_sequence (rk : Vector Block 10) (a : Nat → Block)
    (h : ∀ i : Fin 9, a (i.val + 1) = lsx rk[i.val] (a i.val)) : encrypt rk (a 0) = xorBlock rk[9] (a 9) := by
  have hlen : (fullRoundKeys rk).length = 9 := by simp [fullRoundKeys, Config.fullRounds]
  have hrounds : rounds (fullRoundKeys rk) (a 0) = a (fullRoundKeys rk).length := by
    refine rounds_of_sequence _ a fun i hi => ?_
    simpa [fullRoundKeys] using h ⟨i, hlen ▸ hi⟩
  rw [encrypt_eq_rounds, hrounds, hlen]

/-- The recurrence of R110, read from its end, is the one of R109: its last block encrypts to the block it began with. -/
theorem decrypt_of_sequence (rk : Vector Block 10) (b : Block) (a : Nat → Block) (h9 : a 9 = xorBlock rk[9] b)
    (h : ∀ i : Fin 9, a i.val = lsxInv rk[i.val] (a (i.val + 1))) : decrypt rk b = a 0 := by
  have henc : encrypt rk (a 0) = b := by
    rw [encrypt_of_sequence rk a fun i => by rw [h i, lsx_lsxInv], h9, xorBlock_cancel_left]
  rw [← henc, decrypt_encrypt]

end Sys2Proof.Machine
end

section
/-! SUPPORT. A chunk that succeeds, and what it does not see (43_cfb_mode.md R120, R121). -/

namespace Sys2Proof.Machine

section
variable {n : Nat} {s : State} (hn : n ≤ 16) (hk : s.keyed = true) (hm : s.mode = true)
include hn hk hm

theorem exec_cfbEnc_of_mode : exec (.cfbEnc n) s =
    .next (finish 0 (advanceMode n (chunkOut n s.din (keystream s)) (setDout (chunkOut n s.din (keystream s)) s))) := by
  rcases execCfbEnc_cases n s with ⟨h, _⟩ | ⟨_, h, _⟩ | ⟨_, _, h, _⟩ | ⟨_, _, _, h⟩
  · omega
  · cases hk.symm.trans h
  · cases hm.symm.trans h
  · exact h

theorem exec_cfbDec_of_mode : exec (.cfbDec n) s =
    .next (finish 0 (advanceMode n s.din (setDout (chunkOut n s.din (keystream s)) s))) := by
  rcases execCfbDec_cases n s with ⟨h, _⟩ | ⟨_, h, _⟩ | ⟨_, _, h, _⟩ | ⟨_, _, _, h⟩
  · omega
  · cases hk.symm.trans h
  · cases hm.symm.trans h
  · exact h

/-- A chunk that succeeds overwrites all that the completion of a block command wrote: DOUT, ERR, PEND and BUSY. -/
theorem exec_chunk_finish_setDout {chunk : Nat → Instr} (hc : chunk ∈ [Instr.cfbEnc, Instr.cfbDec]) (c : BitVec 4)
    (out : Block) : exec (chunk n) (finish c (setDout out s)) = exec (chunk n) s := by
  simp only [List.mem_cons, List.not_mem_nil, or_false] at hc
  rcases hc with rfl | rfl
  · rw [exec_cfbEnc_of_mode (s := finish c (setDout out s)) hn hk hm, exec_cfbEnc_of_mode hn hk hm, advanceMode_eq,
      advanceMode_eq]
    rfl
  · rw [exec_cfbDec_of_mode (s := finish c (setDout out s)) hn hk hm, exec_cfbDec_of_mode hn hk hm, advanceMode_eq,
      advanceMode_eq]
    rfl

end

end Sys2Proof.Machine
end

section
/-! SUPPORT. The round keys of the known-answer key, group by group through the numeric twins (42_block_transform.md R116). -/

namespace Sys2Proof.Machine

theorem nums2_injective (p q : Block × Block) (h : nums2 p = nums2 q) : p = q :=
  Prod.ext (nums_injective _ _ (congrArg Prod.fst h)) (nums_injective _ _ (congrArg Prod.snd h))

/-- Ten blocks that begin with the key's halves, and in which every pair leads to the next, are the key's schedule
(41_key_schedule.md R102). -/
theorem schedule_eq_of_groups (k : Key) (rk : Vector Block 10) (h0 : (rk[0], rk[1]) = (keyFirst k, keySecond k))
    (h : ∀ j : Fin 4, feistelGroup (rk[2 * j.val], rk[2 * j.val + 1]) (j.val + 1) =
      (rk[2 * j.val + 2], rk[2 * j.val + 3])) : schedule k = rk := by
  have hpair : ∀ (j : Nat) (hj : j < 5), keyPair k j = (rk[2 * j], rk[2 * j + 1]) := by
    intro j
    induction j with
    | zero => exact fun _ => h0.symm
    | succ j ih =>
      intro hj
      rw [keyPair, ih (by omega)]
      exact h ⟨j, by omega⟩
  apply Vector.ext
  intro i hi
  simp only [schedule, Vector.getElem_ofFn, hpair (i / 2) (by omega)]
  split
  · congr 1; omega
  · congr 1; omega

/-- Each pair of the KAT round keys leads to the next, over numbers. -/
theorem groupNum_katRoundKeys : ∀ j : Fin 4,
    groupNum (nums2 (katRoundKeys[2 * j.val], katRoundKeys[2 * j.val + 1])) (j.val + 1) =
      nums2 (katRoundKeys[2 * j.val + 2], katRoundKeys[2 * j.val + 3]) := by
  decide +kernel

theorem schedule_katKey : schedule katKey = katRoundKeys :=
  schedule_eq_of_groups katKey katRoundKeys (by decide) fun j =>
    nums2_injective _ _ ((nums2_feistelGroup _ _).trans (groupNum_katRoundKeys j))

end Sys2Proof.Machine
end

section
/-! PROOF. The block transform and its two commands (42_block_transform.md R109–R116). -/

namespace Sys2Proof.Machine

/-- Settles O10, from the outcome of ENC_BLOCK and the nine full rounds. -/
theorem encBlockCompletes : Obligations.EncBlockCompletes := by
  refine fun s hk => ⟨encrypt s.rk s.din, ?_, fun a h0 h => ?_⟩
  · rw [runsBlock_encBlock s hk, finish, setDout]
  · rw [← h0]
    exact encrypt_of_sequence s.rk a h

/-- Settles O11, from the outcome of DEC_BLOCK: the inverse rounds, read from their end, encrypt what they leave to DIN. -/
theorem decBlockCompletes : Obligations.DecBlockCompletes := by
  refine fun s hk => ⟨decrypt s.rk s.din, ?_, decrypt_of_sequence s.rk s.din⟩
  rw [runsBlock_decBlock s hk, finish, setDout]

/-- Settles O42: every round is undone by its inverse on either side. -/
theorem blockTransformRoundTrips : Obligations.BlockTransformRoundTrips := by
  refine ⟨fun rk b => ⟨decrypt_encrypt rk b, encrypt_decrypt rk b⟩, fun s hk =>
    ⟨_, _, runsBlock_encBlock s hk, runsBlock_decBlock _ (by simp [hk]), ?_⟩⟩
  simp only [finish_dout, finish_rk, setDout_dout, setDout_rk, decrypt_encrypt]

/-- Settles O50: a block command writes nothing that a chunk reads, and the chunk overwrites what it wrote. -/
theorem blockCommandLeavesStreamAlone : Obligations.BlockCommandLeavesStreamAlone := by
  intro op hop chunk hc s n d hk hm hn
  obtain ⟨f, hf⟩ : ∃ f, RunsBlock f (op 16) := by
    simp only [List.mem_cons, List.not_mem_nil, or_false] at hop
    rcases hop with rfl | rfl
    · exact ⟨_, runsBlock_encBlock⟩
    · exact ⟨_, runsBlock_decBlock⟩
  exact ⟨_, hf s hk, exec_chunk_finish_setDout (s := { s with din := d }) hn hk hm hc 0 _⟩

/-- Settles O46, from the round keys of the known-answer key and the known answer under them. -/
theorem knownAnswer : Obligations.KnownAnswer := by
  change encrypt (schedule katKey) _ = _
  rw [schedule_katKey]
  refine (congrArg (encrypt katRoundKeys) (?_ : _ = plainBlock)).trans (test_encBlock_kat.trans ?_)
  · decide
  · decide

end Sys2Proof.Machine
end

section
/-! SUPPORT. A chunk command in either direction: its outcome with MODE = 1 and with MODE = 0 (43_cfb_mode.md R118–R125). -/

namespace Sys2Proof.Machine

/-- The two directions of the mode. -/
inductive Direction where
  | enc
  | dec

/-- The chunk command of a direction (R120, R121). -/
def Direction.op : Direction → Nat → Instr
  | .enc => .cfbEnc
  | .dec => .cfbDec

/-- Which of a chunk's input and output is the ciphertext, by which FR advances (R122). -/
def Direction.ciphertext {α : Type} : Direction → α → α → α
  | .enc, _, out => out
  | .dec, input, _ => input

theorem exists_direction {op : Nat → Instr} (h : op ∈ [Instr.cfbEnc, Instr.cfbDec]) : ∃ d : Direction, d.op = op := by
  simp only [List.mem_cons, List.not_mem_nil, or_false] at h
  rcases h with rfl | rfl
  · exact ⟨.enc, rfl⟩
  · exact ⟨.dec, rfl⟩

@[simp] theorem Direction.len_op (d : Direction) (n : Nat) : (d.op n).len = n := by
  cases d <;> rfl

/-- The state in which a chunk of n bytes that succeeds ends (R120, R121). -/
def chunkState (d : Direction) (n : Nat) (s : State) : State :=
  { s with
    dout := chunkOut n s.din (keystream s)
    fr := if n = 16 then d.ciphertext s.din (chunkOut n s.din (keystream s)) else s.fr
    part := s.part || decide (1 ≤ n ∧ n ≤ 15)
    err := 0, pend := none, busy := false }

theorem finish_advanceMode_eq_chunkState (d : Direction) {n : Nat} (hn : n ≤ 16) (s : State) :
    finish 0 (advanceMode n (d.ciphertext s.din (chunkOut n s.din (keystream s)))
      (setDout (chunkOut n s.din (keystream s)) s)) = chunkState d n s := by
  have hpart : (1 ≤ n ∧ n ≠ 16) ↔ (1 ≤ n ∧ n ≤ 15) := by omega
  simp only [advanceMode_eq, hpart]
  rfl

/-- Everything a chunk command can do, in either direction. -/
theorem exec_chunk_cases (d : Direction) (n : Nat) (s : State) :
    (16 < n ∧ exec (d.op n) s = .next (finish 7 s)) ∨
    (n ≤ 16 ∧ s.keyed = false ∧ exec (d.op n) s = .next (finish 5 s)) ∨
    (n ≤ 16 ∧ s.keyed = true ∧ s.mode = false ∧ exec (d.op n) s = .next (finish 6 s)) ∨
    (n ≤ 16 ∧ s.keyed = true ∧ s.mode = true ∧ exec (d.op n) s =
      .next (finish 0 (advanceMode n (d.ciphertext s.din (chunkOut n s.din (keystream s)))
        (setDout (chunkOut n s.din (keystream s)) s)))) := by
  cases d with
  | enc => exact execCfbEnc_cases n s
  | dec => exact execCfbDec_cases n s

section
variable (d : Direction) {n : Nat} {s : State} (hn : n ≤ 16) (hk : s.keyed = true)
include hn hk

theorem exec_chunk (hm : s.mode = true) : exec (d.op n) s = .next (chunkState d n s) := by
  rcases exec_chunk_cases d n s with ⟨h, _⟩ | ⟨_, h, _⟩ | ⟨_, _, h, _⟩ | ⟨_, _, _, h⟩
  · omega
  · cases hk.symm.trans h
  · cases hm.symm.trans h
  · exact h.trans (congrArg _ (finish_advanceMode_eq_chunkState d hn s))

/-- While MODE = 0 a chunk raises NoMode (60_exceptions.md R142). -/
theorem exec_chunk_of_no_mode (hm : s.mode = false) : exec (d.op n) s = .next (finish 6 s) := by
  rcases exec_chunk_cases d n s with ⟨h, _⟩ | ⟨_, h, _⟩ | ⟨_, _, _, h⟩ | ⟨_, _, h, _⟩
  · omega
  · cases hk.symm.trans h
  · exact h
  · cases hm.symm.trans h

end

theorem exec_cfbInit_of_keyed {s : State} (hk : s.keyed = true) :
    exec (.cfbInit 16) s = .next (finish 0 (startMode s.din s)) := by
  rcases execCfbInit_cases 16 s with ⟨h, _⟩ | ⟨_, h, _⟩ | ⟨_, _, h⟩
  · exact absurd rfl h
  · cases hk.symm.trans h
  · exact h

end Sys2Proof.Machine
end

section
/-! PROOF. The commands of the mode, one at a time (43_cfb_mode.md R119–R126, R131). -/

namespace Sys2Proof.Machine

/-- Settles O12, from the outcome of CFB_INIT on a keyed core. -/
theorem cfbInitCompletes : Obligations.CfbInitCompletes := by
  intro s hk
  rw [exec_cfbInit_of_keyed hk, finish, startMode]

/-- Settles O13: the state a chunk ends in, with DOUT read byte by byte. -/
theorem cfbEncCompletes : Obligations.CfbEncCompletes := fun _ n hn hk hm =>
  ⟨_, exec_chunk .enc hn hk hm, fun i => chunkOut_getElem n _ _ i i.isLt, rfl⟩

/-- Settles O14, as O13, with DIN for the ciphertext. -/
theorem cfbDecCompletes : Obligations.CfbDecCompletes := fun _ n hn hk hm =>
  ⟨_, exec_chunk .dec hn hk hm, fun i => chunkOut_getElem n _ _ i i.isLt, rfl⟩

/-- A partial chunk leaves FR as it is (R123). -/
theorem chunkState_fr_of_partial (d : Direction) {n : Nat} (hn : n ≤ 15) (s : State) :
    (chunkState d n s).fr = s.fr :=
  if_neg (by omega)

/-- Settles O47: the second chunk's keystream is that of an unmoved FR. -/
theorem partialChunkReusesKeystream : Obligations.PartialChunkReusesKeystream := by
  intro op₁ h₁ op₂ h₂ s n m x hk hm hn1 hn15 hm16
  obtain ⟨d₁, rfl⟩ := exists_direction h₁
  obtain ⟨d₂, rfl⟩ := exists_direction h₂
  have hfr := chunkState_fr_of_partial d₁ hn15 s
  refine ⟨_, _, exec_chunk d₁ (by omega) hk hm,
    exec_chunk d₂ (s := { chunkState d₁ n s with din := x }) hm16 hk hm, hfr, ?_, fun i hi => ?_⟩
  · simp [chunkState, hn1, hn15]
  · refine (chunkOut_getElem m x _ i i.isLt).trans ?_
    rw [if_pos hi, keystream, hfr]
    rfl

/-- A chunk's output is made of the bytes it is given (R125). -/
theorem chunkOut_congr {n : Nat} {x y : Block} (ks : Block) (h : ∀ i : Fin 16, i.val < n → x[i] = y[i]) :
    chunkOut n x ks = chunkOut n y ks := by
  apply Vector.ext
  intro i hi
  rw [chunkOut_getElem _ _ _ _ hi, chunkOut_getElem _ _ _ _ hi]
  split
  next hin => exact congrArg (· ^^^ ks[i]) (h ⟨i, hi⟩ hin)
  next => rfl

/-- Settles O48, from the bytes of a chunk's output. -/
theorem chunkOutputDependsOnItsBytesOnly : Obligations.ChunkOutputDependsOnItsBytesOnly := by
  intro op h s s' n hn hk hm hk' hm' hrk hfr hdin
  obtain ⟨d, rfl⟩ := exists_direction h
  refine ⟨_, _, exec_chunk d hn hk hm, exec_chunk d hn hk' hm', ?_, fun i hi => ?_⟩
  · change chunkOut n s.din (encrypt s.rk s.fr) = chunkOut n s'.din (encrypt s'.rk s'.fr)
    rw [hrk, hfr, chunkOut_congr _ hdin]
  · exact (chunkOut_getElem n _ _ i i.isLt).trans (if_neg (Nat.not_lt.mpr hi))

/-- The mode state is a matter of MODE and PART alone. -/
theorem modeState_congr {s t : State} (hm : t.mode = s.mode) (hp : t.part = s.part) : modeState t = modeState s := by
  rw [modeState, modeState, hm, hp]

/-- A chunk that succeeds moves the mode state to Ended when it is partial, and else leaves it (R131). -/
theorem modeState_chunk (c : BitVec 4) {n : Nat} (ct out : Block) {s : State} (hn : n ≤ 16) (hm : s.mode = true) :
    modeState (finish c (advanceMode n ct (setDout out s))) = if 1 ≤ n ∧ n ≤ 15 then .ended else modeState s := by
  rw [advanceMode_eq]
  by_cases h : 1 ≤ n ∧ n ≤ 15
  · rw [if_pos h]
    simp [modeState, hm, show 1 ≤ n ∧ n ≠ 16 by omega]
  · rw [if_neg h]
    exact modeState_congr rfl (by simp [show ¬(1 ≤ n ∧ n ≠ 16) by omega])

/-- Settles O49, from the effect of each command. -/
theorem modeInstanceStateMachine : Obligations.ModeInstanceStateMachine := by
  intro i s t h
  cases exec_effect h with
  | raised _ c hc =>
    have hne : c ≠ 0 := by
      rintro rfl
      exact absurd hc.1 (by decide)
    exact (if_pos hne).symm
  | keyBound => rfl
  | blockOut _ out hi => rcases hi with rfl | rfl <;> rfl
  | modeStarted => rfl
  | chunkOut _ n ct out hi hn _ hm => rcases hi with rfl | rfl <;> exact modeState_chunk 0 ct out hn hm

end Sys2Proof.Machine
end

section
/-! SUPPORT. A text cut into chunks of 16 bytes with a shorter last one (43_cfb_mode.md R128). -/

namespace Sys2Proof.Machine

/-- Every text is shorter than a chunk, or a full chunk followed by a text: the induction that a call's loop follows. -/
theorem text_induction {P : List Byte → Prop} (short : ∀ p, p.length < 16 → P p)
    (full : ∀ c p, c.length = 16 → P p → P (c ++ p)) (p : List Byte) : P p := by
  induction hlen : p.length using Nat.strong_induction_on generalizing p with
  | h k ih =>
    by_cases hp : p.length < 16
    · exact short p hp
    · rw [← List.take_append_drop 16 p]
      exact full _ _ (by simp; omega) (ih (p.length - 16) (by omega) _ (by simp))

theorem chunksFuel_nil (fuel : Nat) : chunksFuel fuel [] = [] := by
  cases fuel <;> rfl

theorem chunksFuel_short {fuel : Nat} {p : List Byte} (hp : p.length < 16) (hf : p.length ≤ fuel) :
    chunksFuel fuel p = if p = [] then [] else [p] := by
  by_cases h : p = []
  · rw [if_pos h, h, chunksFuel_nil]
  · have hpos := List.length_pos_iff.mpr h
    obtain ⟨k, rfl⟩ : ∃ k, fuel = k + 1 := ⟨fuel - 1, by omega⟩
    rw [if_neg h, chunksFuel, List.drop_eq_nil_of_le hp.le, List.take_of_length_le hp.le, chunksFuel_nil]
    simp [h]

theorem chunksFuel_full (fuel : Nat) {c : List Byte} (hc : c.length = 16) (p : List Byte) :
    chunksFuel (fuel + 1) (c ++ p) = c :: chunksFuel fuel p := by
  have hne : c ++ p ≠ [] := fun h => by simp [(List.append_eq_nil_iff.mp h).1] at hc
  simp [chunksFuel, hne, ← hc]

/-- Any fuel from the text's length on gives the same chunks. -/
theorem chunksFuel_congr (p : List Byte) :
    ∀ f g, p.length ≤ f → p.length ≤ g → chunksFuel f p = chunksFuel g p := by
  induction p using text_induction with
  | short p hp =>
    intro f g hf hg
    rw [chunksFuel_short hp hf, chunksFuel_short hp hg]
  | full c p hc ih =>
    intro f g hf hg
    rw [List.length_append, hc] at hf hg
    obtain ⟨f, rfl⟩ : ∃ k, f = k + 1 := ⟨f - 1, by omega⟩
    obtain ⟨g, rfl⟩ : ∃ k, g = k + 1 := ⟨g - 1, by omega⟩
    rw [chunksFuel_full _ hc, chunksFuel_full _ hc, ih f g (by omega) (by omega)]

theorem chunks_short {p : List Byte} (hp : p.length < 16) : chunks p = if p = [] then [] else [p] :=
  chunksFuel_short hp le_rfl

theorem chunks_full {c : List Byte} (hc : c.length = 16) (p : List Byte) : chunks (c ++ p) = c :: chunks p := by
  have hlen : (c ++ p).length = (15 + p.length) + 1 := by rw [List.length_append, hc]; omega
  rw [chunks, hlen, chunksFuel_full _ hc, chunks, chunksFuel_congr p _ p.length (by omega) le_rfl]

theorem length_le_of_mem_chunks (p : List Byte) : ∀ c ∈ chunks p, c.length ≤ 16 := by
  induction p using text_induction with
  | short p hp =>
    rw [chunks_short hp]
    split
    · simp
    · simpa using hp.le
  | full c p hc ih =>
    rw [chunks_full hc]
    exact List.forall_mem_cons.mpr ⟨hc.le, ih⟩

theorem chunks_ne_nil {p : List Byte} (hp : p ≠ []) : chunks p ≠ [] := by
  induction p using text_induction with
  | short p hlt => simp [chunks_short hlt, hp]
  | full c p hc => simp [chunks_full hc]

/-- A text whose length is a multiple of 16 is cut off where it ends. -/
theorem chunks_append {p : List Byte} (hp : p.length % 16 = 0) (q : List Byte) :
    chunks (p ++ q) = chunks p ++ chunks q := by
  induction p using text_induction with
  | short p hlt =>
    obtain rfl : p = [] := List.eq_nil_of_length_eq_zero (by omega)
    rfl
  | full c p hc ih =>
    rw [List.length_append, hc] at hp
    rw [List.append_assoc, chunks_full hc, chunks_full hc, ih (by omega), List.cons_append]

end Sys2Proof.Machine
end

section
/-! SUPPORT. The mode over bytes: what a call puts out, as a function of its chunks, FR and the block transform
(43_cfb_mode.md R118–R123). `streamChunks_of_ready` below ties it to the calls. -/

namespace Sys2Proof.Machine

/-- A chunk and as many bytes of the keystream (R120, R121). -/
def xorChunk (ks : Block) (c : List Byte) : List Byte := List.zipWith (· ^^^ ·) c ks.toList

theorem length_xorChunk (ks : Block) {c : List Byte} (hc : c.length ≤ 16) : (xorChunk ks c).length = c.length := by
  simpa [xorChunk] using hc

theorem xorChunk_xorChunk (ks : Block) {c : List Byte} (hc : c.length ≤ 16) : xorChunk ks (xorChunk ks c) = c := by
  apply List.ext_getElem
  · rw [length_xorChunk _ ((length_xorChunk ks hc).trans_le hc), length_xorChunk ks hc]
  · intro i _ _
    simp [xorChunk]

/-- The block of a full chunk. -/
def blockOfBytes (bs : List Byte) : Block := Vector.ofFn fun i => bs.getD i.val 0

/-- FR after a chunk: the ciphertext when the chunk is full, else as it was (R122, R123). -/
def feedbackAfter (d : Direction) (E : Block → Block) (fr : Block) (c : List Byte) : Block :=
  if c.length = 16 then blockOfBytes (d.ciphertext c (xorChunk (E fr) c)) else fr

/-- What the chunks give, from the feedback register `fr` on. -/
def streamBytes (d : Direction) (E : Block → Block) : List (List Byte) → Block → List Byte
  | [], _ => []
  | c :: cs, fr => xorChunk (E fr) c ++ streamBytes d E cs (feedbackAfter d E fr c)

section
variable (d : Direction) (E : Block → Block) (fr : Block)

theorem streamBytes_short {p : List Byte} (hp : p.length < 16) : streamBytes d E (chunks p) fr = xorChunk (E fr) p := by
  rw [chunks_short hp]
  split
  next h => rw [h]; rfl
  next => exact List.append_nil _

theorem streamBytes_full {c : List Byte} (hc : c.length = 16) (p : List Byte) :
    streamBytes d E (chunks (c ++ p)) fr =
      xorChunk (E fr) c ++ streamBytes d E (chunks p) (blockOfBytes (d.ciphertext c (xorChunk (E fr) c))) := by
  rw [chunks_full hc, streamBytes, feedbackAfter, if_pos hc]

theorem length_streamBytes (p : List Byte) : (streamBytes d E (chunks p) fr).length = p.length := by
  induction p using text_induction generalizing fr with
  | short p hp => rw [streamBytes_short d E fr hp, length_xorChunk _ hp.le]
  | full c p hc ih => rw [streamBytes_full d E fr hc, List.length_append, ih, length_xorChunk _ hc.le, List.length_append]

/-- What follows a text of full chunks has no part in its output nor in the FR it leaves. -/
theorem streamBytes_append {p : List Byte} (hp : p.length % 16 = 0) :
    ∃ out fr', out.length = p.length ∧
      ∀ q, streamBytes d E (chunks (p ++ q)) fr = out ++ streamBytes d E (chunks q) fr' := by
  induction p using text_induction generalizing fr with
  | short p hlt =>
    obtain rfl : p = [] := List.eq_nil_of_length_eq_zero (by omega)
    exact ⟨[], fr, rfl, fun _ => rfl⟩
  | full c p hc ih =>
    rw [List.length_append, hc] at hp
    obtain ⟨out, fr', hlen, hout⟩ := ih (blockOfBytes (d.ciphertext c (xorChunk (E fr) c))) (by omega)
    refine ⟨xorChunk (E fr) c ++ out, fr', ?_, fun q => ?_⟩
    · rw [List.length_append, List.length_append, hlen, length_xorChunk _ hc.le]
    · rw [List.append_assoc, streamBytes_full d E fr hc, hout, List.append_assoc]

end

/-- Both directions advance FR by the ciphertext, so decryption meets the keystreams of encryption. -/
theorem streamBytes_dec_enc (E : Block → Block) (p : List Byte) (fr : Block) :
    streamBytes .dec E (chunks (streamBytes .enc E (chunks p) fr)) fr = p := by
  induction p using text_induction generalizing fr with
  | short p hp =>
    rw [streamBytes_short _ E fr hp, streamBytes_short _ E fr ((length_xorChunk _ hp.le).trans_lt hp),
      xorChunk_xorChunk _ hp.le]
  | full c p hc ih =>
    rw [streamBytes_full _ E fr hc, streamBytes_full _ E fr ((length_xorChunk _ hc.le).trans hc),
      xorChunk_xorChunk _ hc.le]
    exact congrArg (c ++ ·) (ih _)

/-- A decryption that starts from a wrong FR is wrong in its first chunk at most. -/
theorem drop_streamBytes_dec (E : Block → Block) (fr fr' : Block) (p : List Byte) :
    (streamBytes .dec E (chunks p) fr).drop 16 = (streamBytes .dec E (chunks p) fr').drop 16 := by
  induction p using text_induction with
  | short p hp =>
    have hlen (f : Block) : (streamBytes .dec E (chunks p) f).length ≤ 16 := (length_streamBytes ..).trans_le hp.le
    rw [List.drop_eq_nil_of_le (hlen fr), List.drop_eq_nil_of_le (hlen fr')]
  | full c p hc =>
    rw [streamBytes_full _ E fr hc, streamBytes_full _ E fr' hc, List.drop_left' ((length_xorChunk _ hc.le).trans hc),
      List.drop_left' ((length_xorChunk _ hc.le).trans hc)]
    rfl

/-- Two decryptions that differ in one full ciphertext chunk agree before it and from the second chunk after it on. -/
theorem streamBytes_dec_agree (E : Block → Block) (fr : Block) {pre x x' : List Byte} (post : List Byte)
    (hpre : pre.length % 16 = 0) (hx : x.length = 16) (hx' : x'.length = 16) {i : Nat}
    (hi : i < pre.length ∨ pre.length + 32 ≤ i) :
    (streamBytes .dec E (chunks (pre ++ (x ++ post))) fr)[i]? =
      (streamBytes .dec E (chunks (pre ++ (x' ++ post))) fr)[i]? := by
  obtain ⟨out, fr', hlen, hout⟩ := streamBytes_append .dec E fr hpre
  rw [hout, hout]
  rcases hi with hi | hi
  · rw [List.getElem?_append_left (hlen ▸ hi), List.getElem?_append_left (hlen ▸ hi)]
  · obtain ⟨j, rfl⟩ := Nat.exists_eq_add_of_le hi
    have hdrop (l : List Byte) (y : List Byte) (hy : y.length = 16) :
        (out ++ (xorChunk (E fr') y ++ l))[pre.length + 32 + j]? = (l.drop 16)[j]? := by
      have hy' := (length_xorChunk (E fr') hy.le).trans hy
      rw [← List.append_assoc, List.getElem?_append_right (by simp; omega), List.getElem?_drop]
      congr 1
      simp; omega
    rw [streamBytes_full _ E fr' hx, streamBytes_full _ E fr' hx', hdrop _ x hx, hdrop _ x' hx',
      drop_streamBytes_dec]

end Sys2Proof.Machine
end

section
/-! SUPPORT. Running one chunk of a call on an idle core: the loads, the CMD write, the poll and the reads of DOUT
(43_cfb_mode.md R128; 30_encoding.md R73, R74). -/

namespace Sys2Proof.Machine

/-- `run_permittedAll` with more events to come: the accesses are carried out in order and leave those next. -/
theorem run_permittedAll_append (as : List Access) (es : List Event) {s : State} (hr : s.resetLine = false)
    (has : ∀ a ∈ as, a.offset < 0x100 ∧ a.malformed = false) :
    run as.length (setEvents (as.map Event.access ++ es) s) = .next (setEvents es (permittedAll as s)) := by
  induction as generalizing s with
  | nil => rfl
  | cons a as ih =>
    obtain ⟨⟨ho, hm⟩, has⟩ := List.forall_mem_cons.mp has
    have hstep : handleEvent (.access a) (setEvents (as.map Event.access ++ es) s) =
        .next (setEvents (as.map Event.access ++ es) (permitted a s)) := by
      rw [handleEvent, hostAccess_permitted (s := setEvents (as.map Event.access ++ es) s) ho hm hr, permitted_setEvents]
    exact (run_event _ hstep).trans (ih ((permitted_hostKeeps a s).resetLine.trans hr) has)

/-- A poll on a busy core: the completion, then the read of STATUS that ends the loop. -/
theorem run_poll_of_complete {s t : State} {es : List Event} (he : s.events = .poll :: es) (hb : s.busy = true)
    (hr : s.resetLine = false) (ht : complete s = .next t) :
    run 2 s = .next (record (.value 0x004 (statusWord t)) (setEvents es t)) := by
  have hk := complete_keeps ht
  obtain ⟨_, hpoll, _⟩ := step_completes hb hr
  have hread : step t = .next (record (.value 0x004 (statusWord t)) (setEvents es t)) := by
    rw [step_of_event (hk.events.trans he), handleEvent, hostPoll_idle (s := setEvents es t) hk.busy]
    exact hostAccess_permitted (by decide) rfl (hk.resetLine.trans hr)
  rw [run_succ 1 s t ((hpoll es he).trans ht), run_succ 0 t _ hread, run_zero]

/-- The accesses that load a chunk and write its command. -/
def chunkAccesses (i : Instr) (c : List Byte) : List Access :=
  wordWrites offDin c ((c.length + 3) / 4) ++ [.write 32 offCmd (encode i)]

theorem chunkProgram_eq_accesses (op : Nat → Instr) (c : List Byte) :
    chunkProgram op c = (chunkAccesses (op c.length) c).map Event.access ++ [.poll] := by
  simp only [chunkProgram, chunkAccesses, loadInBytes_eq_wordWrites, List.map_append, List.append_assoc]
  rfl

theorem chunkAccesses_permitted (i : Instr) {c : List Byte} (hc : c.length ≤ 16) :
    ∀ a ∈ chunkAccesses i c, a.offset < 0x100 ∧ a.malformed = false := by
  have hoff : ∀ k < (c.length + 3) / 4, offDin k < 0x100 ∧ offDin k % 4 = 0 := by
    intro k hk
    rw [offDin]
    omega
  intro a ha
  rcases List.mem_append.mp ha with ha | ha
  · exact wordWrites_permitted hoff c a ha
  · rw [List.mem_singleton.mp ha]
    exact ⟨Nat.zero_lt_succ _, malformed_eq_false rfl rfl⟩

/-- The core as the poll of a chunk's program finds it: the bytes `b` in DIN and the command pending. -/
def chunkLoaded (i : Instr) (b : Block) (s : State) : State :=
  setEvents [.poll] (takeCommand (encode i) { s with din := b })

/-- The accesses leave the chunk in DIN and its command pending. -/
theorem permittedAll_chunkAccesses (i : Instr) {c : List Byte} (hc : c.length ≤ 16) {s : State} (hb : s.busy = false) :
    ∃ b : Block, b.toList.take c.length = c ∧
      setEvents [.poll] (permittedAll (chunkAccesses i c) s) = chunkLoaded i b s := by
  have hm : (c.length + 3) / 4 ≤ 4 := by omega
  obtain ⟨b, hwrites, hbytes⟩ := permittedAll_wordWrites (writesWords_din hb) c s.din (Nat.mul_le_mul_left 4 hm)
  refine ⟨b, List.ext_getElem (by simp [hc]) fun j _ hj => ?_, ?_⟩
  · rw [List.getElem_take, Vector.getElem_toList, hbytes, if_pos (by omega)]
    simp [hj]
  · rw [chunkAccesses, permittedAll_append_singleton]
    have hcmd := (congrArg (permitted (.write 32 offCmd (encode i))) hwrites).trans
      (accept_idle (encode i) (s := { s with din := b }) hb)
    exact congrArg (setEvents [.poll]) hcmd

/-- The core after a poll whose command completed in `t`: STATUS has been read. -/
def afterPoll (t : State) : State := record (.value 0x004 (statusWord t)) (setEvents [] t)

/-- A chunk's program on an idle core runs its command with the chunk in DIN. -/
theorem runEvents_chunkProgram {op : Nat → Instr} {c : List Byte} (hc : c.length ≤ 16)
    (hop : (op c.length).len = c.length) {s : State} (hb : s.busy = false) (hr : s.resetLine = false) :
    ∃ b : Block, b.toList.take c.length = c ∧
      ∀ t, exec (op c.length) (chunkLoaded (op c.length) b s) = .next t →
        runEvents (chunkProgram op c) s = .next (afterPoll t) := by
  obtain ⟨b, hbytes, haccesses⟩ := permittedAll_chunkAccesses (op c.length) hc hb
  refine ⟨b, hbytes, fun t ht => ?_⟩
  have hdecode : decode (encode (op c.length)) = .instr (op c.length) :=
    decode_encode ((wf_iff_len_le _).mpr (by omega))
  have hload := run_permittedAll_append _ [.poll] hr (chunkAccesses_permitted (op c.length) hc)
  rw [haccesses] at hload
  have hpoll := run_poll_of_complete (s := chunkLoaded (op c.length) b s) rfl rfl hr
    ((complete_instr rfl hdecode).trans ht)
  have hbusy : t.busy = false := (exec_effect ht).keeps.busy
  rw [runEvents, chunkProgram_eq_accesses, List.length_append, List.length_map]
  generalize (chunkAccesses (op c.length) c).length = n at hload ⊢
  rw [List.length_singleton, show 2 * (n + 1) + 1 = n + (2 + (n + 1)) by omega, run_add _ _ _ _ hload,
    run_add _ _ _ _ hpoll]
  exact run_ended _ _ ⟨rfl, hbusy⟩

/-- ERR as the host reads it. -/
theorem readErr_eq (s : State) : readErr s = s.err := by
  change BitVec.extractLsb' (n := 20 + 4 + 3 + 1 + 1 + 1 + 1 + 1) 8 4 (statusWord s) = s.err
  rw [statusWord]
  simp only [BitVec.extractLsb'_append_eq_of_le, Nat.reduceLeDiff, Nat.reduceSub]
  exact BitVec.extractLsb'_append_eq_right

theorem blockWord_eq_paddedWord (b : Block) (k : Fin 4) : blockWord b k = paddedWord b.toList k.val := by
  have hbyte (j : Nat) (hj : j < 16) : b.toList.getD j 0 = b[j] := by simp [hj]
  rw [paddedWord, hbyte _ (by omega), hbyte _ (by omega), hbyte _ (by omega), hbyte _ (by omega)]
  rfl

theorem laneByte_memRead_dout (s : State) (i : Nat) (hi : i < 16) :
    laneByte (memRead (offDout (i / 4)) s) (i % 4) = s.dout[i] := by
  have hread := memRead_dout ⟨i / 4, by omega⟩ s
  rw [blockWord_eq_paddedWord] at hread
  rw [offDout, hread, laneByte_paddedWord]
  simp [hi]

/-- The bytes of DOUT as the host reads them. -/
theorem readOutBytes_eq (s : State) : readOutBytes s = s.dout.toList := by
  have hflat : readOutBytes s =
      (List.range 16).map fun i => laneByte (memRead (offDout (i / 4)) s) (i % 4) := rfl
  rw [hflat]
  apply List.ext_getElem
  · simp
  · intro i hi _
    simp only [List.length_map, List.length_range] at hi
    rw [List.getElem_map, List.getElem_range, laneByte_memRead_dout s i hi, Vector.getElem_toList]

end Sys2Proof.Machine
end

section
/-! SUPPORT. A stream call chunk by chunk, and what it puts out (43_cfb_mode.md R128, R129). -/

namespace Sys2Proof.Machine

/-- What a call with bytes needs to succeed, and what every chunk keeps: an idle core with KEYED = MODE = 1. -/
structure StreamReady (s : State) : Prop where
  idle : s.busy = false
  released : s.resetLine = false
  keyed : s.keyed = true
  mode : s.mode = true

/-- A call that answers answered each chunk: it ran, its ERR was 0, and DOUT was read before the rest. -/
theorem streamChunks_cons_eq_some_iff (op : Nat → Instr) (c : List Byte) (cs : List (List Byte)) (s : State)
    (out : List Byte) (v : State) :
    streamChunks op (c :: cs) s = (some out, v) ↔
      ∃ t u rest, runEvents (chunkProgram op c) s = .next t ∧ t.resetLine = false ∧ t.err = 0 ∧
        runEvents kzReadOut t = .next u ∧ streamChunks op cs u = (some rest, v) ∧
        t.dout.toList.take c.length ++ rest = out := by
  simp only [streamChunks, readErr_eq, readOutBytes_eq]
  cases hrun : runEvents (chunkProgram op c) s with
  | fault r => simp
  | refused r => simp
  | next t =>
    by_cases hr : t.resetLine
    · simp [hr]
    by_cases he : t.err = 0#4
    · cases hread : runEvents kzReadOut t with
      | fault r => simp [he, hread]
      | refused r => simp [he, hread]
      | next u => rcases hrest : streamChunks op cs u with ⟨_ | rest, w⟩ <;> simp [he, hr, hread, hrest, and_comm]
    · simp [hr, he]

/-- A chunk whose command raised an error ends the call with no output. -/
theorem streamChunks_cons_of_err {op : Nat → Instr} {c : List Byte} (cs : List (List Byte)) {s t : State}
    (hrun : runEvents (chunkProgram op c) s = .next t) (he : t.err ≠ 0) : streamChunks op (c :: cs) s = (none, t) := by
  simp only [streamChunks, hrun, readErr_eq, if_pos he, ite_self]

/-- A call over the chunks of two is the second call after the first. -/
theorem streamChunks_append {op : Nat → Instr} {cs cs' : List (List Byte)} {s t u : State} {out out' : List Byte}
    (h : streamChunks op cs s = (some out, t)) (h' : streamChunks op cs' t = (some out', u)) :
    streamChunks op (cs ++ cs') s = (some (out ++ out'), u) := by
  induction cs generalizing s out with
  | nil =>
    cases h
    exact h'
  | cons c cs ih =>
    obtain ⟨t₁, u₁, rest, hrun, hr, he, hread, hrest, rfl⟩ := (streamChunks_cons_eq_some_iff ..).mp h
    exact (streamChunks_cons_eq_some_iff ..).mpr
      ⟨t₁, u₁, rest ++ out', hrun, hr, he, hread, ih hrest, (List.append_assoc ..).symm⟩

/-- The first n bytes of a chunk's output. -/
theorem take_chunkOut {n : Nat} (hn : n ≤ 16) (b ks : Block) :
    (chunkOut n b ks).toList.take n = xorChunk ks (b.toList.take n) := by
  apply List.ext_getElem
  · simp [xorChunk, hn]
  · intro j hj _
    have hjn : j < n := hj.trans_le (List.length_take_le ..)
    simp [xorChunk, chunkOut_getElem, hjn]

theorem blockOfBytes_toList (b : Block) : blockOfBytes b.toList = b := by
  apply Vector.ext
  intro i hi
  simp [blockOfBytes]

/-- FR after a chunk, from the bytes of the chunk. -/
theorem chunkState_fr (d : Direction) {n : Nat} (hn : n ≤ 16) (s : State) :
    (chunkState d n s).fr = feedbackAfter d (encrypt s.rk) s.fr (s.din.toList.take n) := by
  have hlen : (s.din.toList.take n).length = n := by simp [hn]
  rw [feedbackAfter, hlen]
  by_cases h : n = 16
  · subst h
    have hall (b : Block) : b.toList.take 16 = b.toList := List.take_of_length_le (by simp)
    have hct : d.ciphertext (s.din.toList.take 16) (xorChunk (keystream s) (s.din.toList.take 16)) =
        (d.ciphertext s.din (chunkOut 16 s.din (keystream s))).toList := by
      rw [← take_chunkOut hn, hall, hall]
      cases d <;> rfl
    exact ((congrArg blockOfBytes hct).trans (blockOfBytes_toList _)).symm
  · rw [if_neg h]
    exact if_neg h

/-- The reads of DOUT on an idle core add to the host's record alone. -/
theorem runEvents_kzReadOut {s : State} (hb : s.busy = false) (hr : s.resetLine = false) :
    ∃ r, runEvents kzReadOut s = .next { s with events := [], seen := r } := by
  obtain ⟨_, _, _, _, hread, _⟩ := pseudoInstructionsExpand s hb hr
  exact ⟨_, hread⟩

/-- One chunk of a call that succeeds: what it puts out, and the ready core with which the call goes on. -/
theorem streamChunks_cons_of_ready (d : Direction) {c : List Byte} (hc : c.length ≤ 16) {s : State}
    (hs : StreamReady s) :
    ∃ u, StreamReady u ∧ u.rk = s.rk ∧ u.fr = feedbackAfter d (encrypt s.rk) s.fr c ∧
      ∀ {cs rest v}, streamChunks d.op cs u = (some rest, v) →
        streamChunks d.op (c :: cs) s = (some (xorChunk (keystream s) c ++ rest), v) := by
  obtain ⟨hb, hr, hk, hm⟩ := hs
  obtain ⟨b, hin, hrun⟩ := runEvents_chunkProgram (op := d.op) hc (d.len_op _) hb hr
  have hchunk := hrun _ (exec_chunk d (s := chunkLoaded (d.op c.length) b s) hc hk hm)
  obtain ⟨r, hread⟩ := runEvents_kzReadOut
    (s := afterPoll (chunkState d c.length (chunkLoaded (d.op c.length) b s))) rfl hr
  have hout : (chunkOut c.length b (keystream s)).toList.take c.length = xorChunk (keystream s) c := by
    rw [take_chunkOut hc, hin]
  have hfr := chunkState_fr d hc (chunkLoaded (d.op c.length) b s)
  refine ⟨{ afterPoll (chunkState d c.length (chunkLoaded (d.op c.length) b s)) with events := [], seen := r },
    ⟨rfl, hr, hk, hm⟩, rfl, hfr.trans (congrArg (feedbackAfter d (encrypt s.rk) s.fr) hin), fun hrest => ?_⟩
  exact (streamChunks_cons_eq_some_iff ..).mpr
    ⟨_, _, _, hchunk, hr, rfl, hread, hrest, congrArg (· ++ _) hout⟩

/-- A call on a ready core succeeds, puts out what the mode makes of its chunks, and leaves the core ready. -/
theorem streamChunks_of_ready (d : Direction) (cs : List (List Byte)) (hcs : ∀ c ∈ cs, c.length ≤ 16) {s : State}
    (hs : StreamReady s) :
    ∃ t, StreamReady t ∧ t.rk = s.rk ∧ streamChunks d.op cs s = (some (streamBytes d (encrypt s.rk) cs s.fr), t) := by
  induction cs generalizing s with
  | nil => exact ⟨s, hs, rfl, rfl⟩
  | cons c cs ih =>
    obtain ⟨hc, hcs⟩ := List.forall_mem_cons.mp hcs
    obtain ⟨u, hu, hrk, hfr, hcons⟩ := streamChunks_cons_of_ready d hc hs
    obtain ⟨t, ht, hrk', hrest⟩ := ih hcs hu
    rw [hrk, hfr] at hrest
    exact ⟨t, ht, hrk'.trans hrk, hcons hrest⟩

/-- The call of a text on a ready core. -/
theorem streamText_of_ready (d : Direction) (p : List Byte) {s : State} (hs : StreamReady s) :
    ∃ t, StreamReady t ∧ t.rk = s.rk ∧
      streamChunks d.op (chunks p) s = (some (streamBytes d (encrypt s.rk) (chunks p) s.fr), t) :=
  streamChunks_of_ready d _ (length_le_of_mem_chunks p) hs

/-- While MODE = 0 the call fails at its first chunk, with NoMode. -/
theorem streamChunks_of_no_mode (d : Direction) {c : List Byte} (hc : c.length ≤ 16) (cs : List (List Byte))
    {s : State} (hb : s.busy = false) (hr : s.resetLine = false) (hk : s.keyed = true) (hm : s.mode = false) :
    ∃ t, streamChunks d.op (c :: cs) s = (none, t) ∧ t.err = 6 ∧ t.dout = s.dout ∧ t.fr = s.fr := by
  obtain ⟨b, _, hrun⟩ := runEvents_chunkProgram (op := d.op) hc (d.len_op _) hb hr
  have hfail := hrun _ (exec_chunk_of_no_mode d (s := chunkLoaded (d.op c.length) b s) hc hk hm)
  exact ⟨_, streamChunks_cons_of_err cs hfail (show (6 : BitVec 4) ≠ 0 by decide), rfl, rfl, rfl⟩

end Sys2Proof.Machine
end

section
/-! PROOF. The source's stream calls and their laws (43_cfb_mode.md R128–R130). -/

namespace Sys2Proof.Machine

/-- Settles O52: a ready core answers each chunk with as many bytes; while MODE = 0 the first chunk raises NoMode. -/
theorem streamCallsKeepLength : Obligations.StreamCallsKeepLength := by
  intro op hop
  obtain ⟨d, rfl⟩ := exists_direction hop
  refine ⟨fun s => rfl, fun s p hb hr hk hm => ?_, fun s p hb hr hk hm hp => ?_⟩
  · obtain ⟨t, ht, hrk, hcall⟩ := streamText_of_ready d p ⟨hb, hr, hk, hm⟩
    exact ⟨_, t, hcall, length_streamBytes d _ _ p, ht.idle, ht.keyed, ht.mode, hrk⟩
  · obtain ⟨c, cs, hcs⟩ := List.exists_cons_of_ne_nil (chunks_ne_nil hp)
    have hc : c.length ≤ 16 := length_le_of_mem_chunks p c (by simp [hcs])
    rw [hcs]
    exact streamChunks_of_no_mode d hc cs hb hr hk hm

/-- CFB_INIT on a keyed core, then a call: the mode over bytes, from the IV on. -/
theorem call_after_cfbInit (d : Direction) (iv : Block) (p : List Byte) {s : State} (hr : s.resetLine = false)
    (hk : s.keyed = true) :
    ∃ s₁ t, exec (.cfbInit 16) { s with din := iv } = .next s₁ ∧ StreamReady t ∧ t.rk = s.rk ∧
      streamChunks d.op (chunks p) s₁ = (some (streamBytes d (encrypt s.rk) (chunks p) iv), t) := by
  obtain ⟨t, ht, hrk, hcall⟩ := streamText_of_ready d p (s := finish 0 (startMode iv { s with din := iv }))
    ⟨rfl, hr, hk, rfl⟩
  exact ⟨_, t, exec_cfbInit_of_keyed (s := { s with din := iv }) hk, ht, hrk, hcall⟩

/-- Settles O53: both calls start from the IV under one key, and decryption undoes encryption over bytes. -/
theorem streamRoundTrip : Obligations.StreamRoundTrip := by
  intro s iv p _ hr hk
  obtain ⟨s₁, t, hinit, ht, hrk, henc⟩ := call_after_cfbInit .enc iv p hr hk
  obtain ⟨s₂, u, hinit', _, _, hdec⟩ := call_after_cfbInit .dec iv (streamBytes .enc (encrypt s.rk) (chunks p) iv)
    ht.released ht.keyed
  have hend : (callEncrypt p s₁).2 = t := congrArg Prod.snd henc
  rw [hrk, streamBytes_dec_enc] at hdec
  exact ⟨s₁, _, s₂, hinit, congrArg Prod.fst henc, hend ▸ hinit', congrArg Prod.fst hdec⟩

/-- Settles O54: the chunks of the whole are those of the parts, and calls over them compose. -/
theorem streamSplitsAtBlocks : Obligations.StreamSplitsAtBlocks := by
  intro op hop s p₁ p₂ hb hr hk hm hp
  obtain ⟨d, rfl⟩ := exists_direction hop
  obtain ⟨t, ht, _, h₁⟩ := streamText_of_ready d p₁ ⟨hb, hr, hk, hm⟩
  obtain ⟨u, _, _, h₂⟩ := streamText_of_ready d p₂ ht
  refine ⟨_, _, t, u, h₁, h₂, ?_⟩
  rw [chunks_append hp]
  exact streamChunks_append h₁ h₂

/-- Settles O55, from the same law over bytes. -/
theorem decryptionSelfSynchronises : Obligations.DecryptionSelfSynchronises := by
  intro s pre x x' post hb hr hk hm hpre hx hx'
  have hcall (c : List Byte) : (callDecrypt c s).1 = some (streamBytes .dec (encrypt s.rk) (chunks c) s.fr) := by
    obtain ⟨_, _, _, h⟩ := streamText_of_ready .dec c ⟨hb, hr, hk, hm⟩
    exact congrArg Prod.fst h
  refine ⟨_, _, hcall _, hcall _, fun i hi => ?_⟩
  rw [List.append_assoc, List.append_assoc]
  exact streamBytes_dec_agree _ _ post hpre hx hx' hi

end Sys2Proof.Machine
end

section
/-! SUPPORT. The error of a completion, from the command word and the flags alone, and what a completion that raises leaves
(60_exceptions.md R133–R142). -/

namespace Sys2Proof.Machine

/-- The error of a command in the priority order length, NoKey, NoMode (60_exceptions.md R135), as the chain of
`CompletionReportsFirstError` has it; 0 when none applies. `exec_err` ties it to `exec`. -/
def firstErr (i : Instr) (keyed mode : Bool) : BitVec 4 :=
  if i.op = 1 ∧ i.len ≠ 32 then 1
  else if (i.op = 2 ∨ i.op = 3) ∧ i.len ≠ 16 then 2
  else if i.op = 4 ∧ i.len ≠ 16 then 3
  else if 5 ≤ i.op.toNat ∧ 16 < i.len then 7
  else if i.op ≠ 1 ∧ keyed = false then 5
  else if 5 ≤ i.op.toNat ∧ mode = false then 6
  else 0

theorem firstErr_keyInit (n : Nat) (keyed mode : Bool) :
    firstErr (.keyInit n) keyed mode = if n ≠ 32 then 1 else 0 := by
  simp [firstErr, Instr.op, Instr.len]

theorem firstErr_block {i : Instr} (n : Nat) (hi : i = .encBlock n ∨ i = .decBlock n) (keyed mode : Bool) :
    firstErr i keyed mode = if n ≠ 16 then 2 else if keyed = false then 5 else 0 := by
  rcases hi with rfl | rfl <;> simp [firstErr, Instr.op, Instr.len]

theorem firstErr_cfbInit (n : Nat) (keyed mode : Bool) :
    firstErr (.cfbInit n) keyed mode = if n ≠ 16 then 3 else if keyed = false then 5 else 0 := by
  simp [firstErr, Instr.op, Instr.len]

theorem firstErr_chunk {i : Instr} (n : Nat) (hi : i = .cfbEnc n ∨ i = .cfbDec n) (keyed mode : Bool) :
    firstErr i keyed mode =
      if 16 < n then 7 else if keyed = false then 5 else if mode = false then 6 else 0 := by
  rcases hi with rfl | rfl <;> simp [firstErr, Instr.op, Instr.len]

/-- Every command reports the first of its errors (R135). -/
theorem exec_err {i : Instr} {s t : State} (h : exec i s = .next t) : t.err = firstErr i s.keyed s.mode := by
  cases i with
  | keyInit n =>
    rw [firstErr_keyInit]
    rcases execKeyInit_cases n s with ⟨hn, he⟩ | ⟨hn, he⟩ <;> cases he.symm.trans h <;> simp [hn]
  | encBlock n =>
    rw [firstErr_block n (.inl rfl)]
    rcases execEncBlock_cases n s with ⟨hn, he⟩ | ⟨hn, hk, he⟩ | ⟨hn, hk, he⟩ <;> cases he.symm.trans h <;> simp [*]
  | decBlock n =>
    rw [firstErr_block n (.inr rfl)]
    rcases execDecBlock_cases n s with ⟨hn, he⟩ | ⟨hn, hk, he⟩ | ⟨hn, hk, he⟩ <;> cases he.symm.trans h <;> simp [*]
  | cfbInit n =>
    rw [firstErr_cfbInit]
    rcases execCfbInit_cases n s with ⟨hn, he⟩ | ⟨hn, hk, he⟩ | ⟨hn, hk, he⟩ <;> cases he.symm.trans h <;> simp [*]
  | cfbEnc n =>
    rw [firstErr_chunk n (.inl rfl)]
    rcases execCfbEnc_cases n s with ⟨hn, he⟩ | ⟨hn, hk, he⟩ | ⟨hn, hk, hm, he⟩ | ⟨hn, hk, hm, he⟩ <;>
      cases he.symm.trans h <;> simp [*]
  | cfbDec n =>
    rw [firstErr_chunk n (.inr rfl)]
    rcases execCfbDec_cases n s with ⟨hn, he⟩ | ⟨hn, hk, he⟩ | ⟨hn, hk, hm, he⟩ | ⟨hn, hk, hm, he⟩ <;>
      cases he.symm.trans h <;> simp [*]

/-- A command that does not end in success has written nothing but how it ended (R133). -/
theorem CommandEffect.eq_finish_of_err_ne_zero {i : Instr} {s t : State} (h : CommandEffect s i t) (he : t.err ≠ 0) :
    t = finish t.err s := by
  cases h with
  | raised => rfl
  | keyBound | blockOut | modeStarted | chunkOut => exact absurd (finish_err _ _) he

theorem complete_eq_finish_of_err_ne_zero {s t : State} (h : complete s = .next t) (he : t.err ≠ 0) :
    t = finish t.err s := by
  obtain ⟨_, _, ⟨_, _, hi⟩ | ⟨_, _, rfl⟩⟩ := complete_effect h
  · exact hi.eq_finish_of_err_ne_zero he
  · rfl

end Sys2Proof.Machine
end

section
/-! PROOF. The error every completion reports (60_exceptions.md R133–R142). -/

namespace Sys2Proof.Machine

/-- A completion reports IllegalCommand for an ILLEGAL word, and for any other the first error of its command (R135, R136). -/
theorem complete_err {s t : State} {w : Word} (hp : s.pend = some w) (h : complete s = .next t) :
    ((∃ y, decode w = .illegal y) ∧ t.err = 4) ∨ ∃ i, decode w = .instr i ∧ t.err = firstErr i s.keyed s.mode := by
  cases hd : decode w with
  | illegal y =>
    cases (complete_illegal hp hd).symm.trans h
    exact .inl ⟨⟨y, rfl⟩, rfl⟩
  | instr i => exact .inr ⟨i, rfl, exec_err ((complete_instr hp hd).symm.trans h)⟩

/-- Settles O15: the ILLEGAL words by their fields, and a command's word by the errors of its command in order. -/
theorem completionReportsFirstError : Obligations.CompletionReportsFirstError := by
  intro s w hp
  obtain ⟨t, h⟩ := complete_next hp
  have hkeeps := complete_keeps h
  refine ⟨t, h, hkeeps.pend, hkeeps.busy, complete_eq_finish_of_err_ne_zero h, ?_⟩
  have hillegal := decode_illegal_iff w
  rw [or_assoc] at hillegal
  rcases complete_err hp h with ⟨hy, herr⟩ | ⟨i, hi, herr⟩
  · exact herr.trans (if_pos (hillegal.mp hy)).symm
  · have hlegal : ¬∃ y, decode w = .illegal y := by simp [hi]
    obtain ⟨_, _, hop, hlen⟩ := decode_instr_fields hi
    have hlen_eq (n : BitVec 6) : w.extractLsb' 8 6 = n ↔ i.len = n.toNat := by
      rw [← hlen, BitVec.toNat_inj, fieldLen]
    rw [fieldOp] at hop
    rw [fieldLen] at hlen
    refine Eq.trans ?_ (if_neg (mt hillegal.mpr hlegal)).symm
    simp only [herr, firstErr, hop, hlen, hlen_eq, ne_eq]
    rfl

end Sys2Proof.Machine
end

section
/-! PROOF. Legal ERR codes, unwritten registers and the held core, over every step (60_exceptions.md R132; 10_state.md R41;
70_reset_and_hazards.md R151, R152). -/

namespace Sys2Proof.Machine

/-- `Settled` speaks of six registers and of the core held in reset. -/
theorem Settled.of_same_registers {s t : State} (hs : Settled s) (herr : t.err = s.err) (hrk : t.rk = s.rk)
    (hdout : t.dout = s.dout) (hfr : t.fr = s.fr) (hkeyed : t.keyed = s.keyed) (hmode : t.mode = s.mode)
    (hheld : t.resetLine = true → t = assertReset t) : Settled t where
  err_legal := herr ▸ hs.err_legal
  unkeyed_rk := by rw [hkeyed, hrk]; exact hs.unkeyed_rk
  unkeyed_dout := by rw [hkeyed, hdout]; exact hs.unkeyed_dout
  unmoded_fr := by rw [hmode, hfr]; exact hs.unmoded_fr
  held_in_reset := hheld

theorem Settled.setEvents {s : State} (hs : Settled s) (es : List Event) : Settled (setEvents es s) :=
  hs.of_same_registers rfl rfl rfl rfl rfl rfl fun hr => congrArg (Machine.setEvents es) (hs.held_in_reset hr)

theorem settled_assertReset (s : State) : Settled (assertReset s) where
  err_legal := Nat.zero_le 7
  unkeyed_rk _ := rfl
  unkeyed_dout _ := rfl
  unmoded_fr _ := rfl
  held_in_reset _ := rfl

/-- A command writes RK and DOUT only with KEYED = 1 after it, and FR only with MODE = 1 or to its reset value. -/
theorem settled_command {i : Instr} {s t : State} (hs : Settled s) (hr : s.resetLine = false)
    (h : CommandEffect s i t) : Settled t := by
  have hheld : t.resetLine = true → t = assertReset t := fun ht => by simp [h.keeps.resetLine, hr] at ht
  cases h with
  | raised _ _ hc => exact ⟨hc.2, hs.unkeyed_rk, hs.unkeyed_dout, hs.unmoded_fr, hheld⟩
  | keyBound => exact ⟨by simp, by simp, by simp, by simp, hheld⟩
  | blockOut _ _ _ hk => exact ⟨by simp, by simp [hk], by simp [hk], hs.unmoded_fr, hheld⟩
  | modeStarted hk => exact ⟨by simp, by simp [hk], by simp [hk], by simp, hheld⟩
  | chunkOut _ n ct out _ hn hk hm =>
    obtain ⟨_, hkeyed, hmode, _⟩ := chunk_keeps n ct (setDout out s) hn
    exact ⟨by simp, by simp [hkeyed, hk], by simp [hkeyed, hk], by simp [hmode, hm], hheld⟩

theorem settled_complete {s t : State} (hs : Settled s) (hr : s.resetLine = false) (h : complete s = .next t) :
    Settled t := by
  obtain ⟨_, _, ⟨_, _, he⟩ | ⟨_, _, rfl⟩⟩ := complete_effect h
  · exact settled_command hs hr he
  · exact ⟨by simp, hs.unkeyed_rk, hs.unkeyed_dout, hs.unmoded_fr, by simp [hr]⟩

/-- An access to a core held in reset is refused, so the core stays at its reset values (70_reset_and_hazards.md R152). -/
theorem settled_hostAccess {a : Access} {s t : State} (hs : Settled s) (h : hostAccess a s = .next t) : Settled t := by
  have hk := hostAccess_hostKeeps h
  refine hs.of_same_registers hk.err hk.rk hk.dout hk.fr hk.keyed hk.mode fun ht => ?_
  have hr : s.resetLine = true := hk.resetLine ▸ ht
  obtain ⟨_, ⟨_, rfl⟩ | ⟨_, hno, _⟩⟩ := hostAccess_next h
  · exact congrArg (record (.refused a)) (hs.held_in_reset hr)
  · cases hr.symm.trans hno

/-- Settles O22, by the kinds of step: a completion, an idle turn, a host access or an edge of reset. -/
theorem stepKeepsSettled : Obligations.StepKeepsSettled := by
  intro s t hs h
  cases step_effect h with
  | completes es _ hr _ h => exact settled_complete (hs.setEvents es) hr h
  | idles _ ht => exact ht ▸ hs.setEvents _
  | accessed a h => exact settled_hostAccess (hs.setEvents _) h
  | resetAsserted es _ ht => exact ht ▸ settled_assertReset _
  | resetReleased es _ ht => exact ht ▸ hs.of_same_registers rfl rfl rfl rfl rfl rfl nofun

end Sys2Proof.Machine
end

section
/-! PROOF. Reset: the invariants and every element right after it, and the accesses refused until its release
(70_reset_and_hazards.md R151, R152). -/

namespace Sys2Proof.Machine

theorem settled_reset : Settled State.reset where
  err_legal := Nat.zero_le 7
  unkeyed_rk _ := rfl
  unkeyed_dout _ := rfl
  unmoded_fr _ := rfl
  held_in_reset h := by cases h

/-- Settles O19: RK and FR are at their reset values, and no flag asks for more. -/
theorem resetSatisfiesInvariants : Obligations.ResetSatisfiesInvariants := ⟨inv_reset, settled_reset⟩

/-- No register shows the level of the reset input or the host's side of the state. -/
theorem memRead_assertReset (off : Nat) (s : State) : memRead off (assertReset s) = memRead off State.reset := by
  unfold memRead
  cases regOf off <;> rfl

theorem memRead_reset_data (k : Fin 20) : memRead (0x020 + 4 * k.val) State.reset = 0 := by
  revert k; decide

/-- Settles O34: every element is one of `State.reset`, and so is every word read. -/
theorem resetSetsEveryElement : Obligations.ResetSetsEveryElement := by
  intro s
  refine ⟨assertReset s, rfl, fun i => ?_, fun i => ?_, fun j i => ?_, rfl, rfl, rfl, rfl, rfl, rfl, rfl, ?_,
    memRead_info _, fun k => ?_⟩
  · exact Vector.getElem_replicate i.isLt
  · exact ⟨zeroBlock_getElem i i.isLt, zeroBlock_getElem i i.isLt, zeroBlock_getElem i i.isLt⟩
  · exact (congrArg (fun b : Block => b[i]) (Vector.getElem_replicate j.isLt)).trans (zeroBlock_getElem i i.isLt)
  · rw [memRead_assertReset]; rfl
  · rw [memRead_assertReset, memRead_reset_data]

/-- While reset is asserted an access in the window is only recorded, well formed or not (R152). -/
theorem hostAccess_held {a : Access} {s : State} (ho : a.offset < 0x100) (hr : s.resetLine = true) :
    hostAccess a s = .next (record (.refused a) s) := by
  rcases hostAccess_cases a s with ⟨h, _⟩ | ⟨_, _, h⟩ | ⟨_, _, h, _⟩
  · omega
  · exact h
  · cases hr.symm.trans h

/-- Settles O35: the edge of reset leaves nothing of the core it found, and holds it in reset. -/
theorem resetAbandonsThePendingCommand : Obligations.ResetAbandonsThePendingCommand :=
  fun s es he => ⟨assertReset (setEvents es s), step_of_event he, rfl, rfl, fun _ ho => hostAccess_held ho rfl⟩

end Sys2Proof.Machine
end

section
/-! PROOF. A stream that a new key ended, taken up again from the saved FR and key (70_reset_and_hazards.md R161). -/

namespace Sys2Proof.Machine

/-- Settles O51: the old key's schedule is the old RK, by the invariant on RK, and CFB_INIT puts the saved FR back. -/
theorem savedFeedbackResumesStream : Obligations.SavedFeedbackResumesStream := by
  intro s other hs hk _ _
  have hrk : schedule (boundKey s.rk) = s.rk := (hs.keyed_schedule hk).symm
  refine ⟨_, _, _, exec_keyInit_32 _, rfl, rfl, exec_keyInit_32 _, exec_cfbInit_of_keyed rfl, ?_⟩
  simp [hrk]

end Sys2Proof.Machine
end

section
/-! PROOF. Every run ends: a bound on the steps left that every step lowers (70_reset_and_hazards.md R166, R168). -/

namespace Sys2Proof.Machine

/-- How many steps are left at most: two an event, since it may set BUSY, and one for a pending command. -/
def stepsLeft (s : State) : Nat := 2 * s.events.length + s.busy.toNat

theorem stepsLeft_eq_zero_iff (s : State) : stepsLeft s = 0 ↔ RunEnded s := by
  simp [stepsLeft, RunEnded]

theorem stepsLeft_le (s : State) : stepsLeft s ≤ 2 * s.events.length + 1 :=
  Nat.add_le_add_left (Bool.toNat_le s.busy) _

/-- A step takes an event off the list, or it completes and leaves the list as it is. -/
theorem step_events {s t : State} (h : step s = .next t) :
    t.events = s.events.tail ∨ (t.events = s.events ∧ s.busy = true ∧ t.busy = false) := by
  cases step_effect h with
  | completes es hb _ hes h =>
    have hk := complete_keeps h
    rcases hes with rfl | hes
    · exact .inr ⟨hk.events, hb, hk.busy⟩
    · exact .inl (by rw [hk.events, hes]; rfl)
  | idles _ ht => exact .inl (ht ▸ rfl)
  | accessed a h => exact .inl (hostAccess_hostKeeps h).events
  | resetAsserted es hes ht => exact .inl (by rw [ht, hes]; rfl)
  | resetReleased es hes ht => exact .inl (by rw [ht, hes]; rfl)

/-- What every state of a run needs for its next step: both invariants, and no access outside the window to come. -/
structure Runnable (s : State) : Prop where
  inv : Inv s
  settled : Settled s
  in_window : ∀ e ∈ s.events, e.inWindow = true

theorem Runnable.of_step {s t : State} (hs : Runnable s) (h : step s = .next t) : Runnable t where
  inv := stepKeepsInvariants s t hs.inv h
  settled := stepKeepsSettled s t hs.settled h
  in_window := by
    rcases step_events h with he | ⟨he, _, _⟩ <;> rw [he]
    · exact fun e hm => hs.in_window e (List.mem_of_mem_tail hm)
    · exact hs.in_window

/-- A busy core within the four invariants has a command to complete. -/
theorem Inv.completes {s : State} (hs : Inv s) (hb : s.busy = true) : ∃ t, complete s = .next t := by
  cases hp : s.pend with
  | none => cases hb.symm.trans (hs.busy_iff_pending.mpr hp)
  | some w => exact complete_next hp

theorem Inv.coreTurn_next {s : State} (hs : Inv s) : ∃ t, coreTurn s = .next t := by
  rcases coreTurn_cases s with ⟨hb, _, h⟩ | ⟨_, h⟩ <;> rw [h]
  · exact hs.completes hb
  · exact ⟨s, rfl⟩

@[simp] theorem Access.offset_at (a : Access) (off : Nat) : (a.at off).offset = off := by
  cases a <;> rfl

/-- No event stops the model when its access, if it is one, lies in the window (R167). -/
theorem Inv.handleEvent_next {e : Event} {s : State} (hs : Inv s) (he : e.inWindow = true) :
    ∃ t, handleEvent e s = .next t := by
  cases e with
  | access a => exact hostAccess_in_window s (of_decide_eq_true he)
  | bus a =>
    obtain ⟨off, hoff⟩ := Option.isSome_iff_exists.mp he
    obtain ⟨hl, hu, rfl⟩ := (windowOffset_eq_some_iff _ _).mp hoff
    rw [handleEvent, busAccess_of_offset s hoff]
    exact hostAccess_in_window s (by rw [Access.offset_at]; omega)
  | poll =>
    rcases hostPoll_cases s with ⟨hb, _, h⟩ | ⟨_, h⟩ <;> rw [handleEvent, h]
    · exact (hs.setEvents _).completes hb
    · exact hostAccess_in_window s (by decide)
  | core => exact hs.coreTurn_next
  | resetAssert => exact ⟨_, rfl⟩
  | resetRelease => exact ⟨_, rfl⟩

/-- No step of a run within the window stops. -/
theorem Runnable.step_next {s : State} (hs : Runnable s) : ∃ t, step s = .next t := by
  rcases step_cases s with ⟨_, h⟩ | ⟨e, es, he, h⟩ <;> rw [h]
  · exact hs.inv.coreTurn_next
  · exact (hs.inv.setEvents es).handleEvent_next (hs.in_window e (by simp [he]))

/-- A core held in reset is idle, so no pending command waits for a release that no event brings (R152). -/
theorem Settled.resetLine_of_busy {s : State} (hs : Settled s) (hb : s.busy = true) : s.resetLine = false := by
  cases hr : s.resetLine with
  | false => rfl
  | true => rw [hs.held_in_reset hr] at hb; cases hb

theorem stepsLeft_step_lt {s t : State} (hs : Settled s) (hn : ¬RunEnded s) (h : step s = .next t) :
    stepsLeft t < stepsLeft s := by
  have hlow : t.events = s.events ∧ s.busy = true ∧ t.busy = false → stepsLeft t < stepsLeft s := by
    rintro ⟨he, hb, hb'⟩
    simp [stepsLeft, he, hb, hb']
  rcases step_events h with he | hc
  · cases hes : s.events with
    | nil =>
      have hb : s.busy = true := by simpa [RunEnded, hes] using hn
      obtain ⟨hnone, _, _⟩ := step_completes hb (hs.resetLine_of_busy hb)
      have hk := complete_keeps ((hnone hes).symm.trans h)
      exact hlow ⟨hk.events, hb, hk.busy⟩
    | cons e es =>
      have hlen : t.events.length + 1 = s.events.length := by rw [he, hes]; rfl
      have hbit := Bool.toNat_le t.busy
      simp only [stepsLeft]
      omega
  · exact hlow hc

/-- The run ends within the bound, by induction on the steps it is given. -/
theorem Runnable.run_ends {s : State} (hs : Runnable s) (k : Nat) (hk : stepsLeft s ≤ k) :
    ∃ t, RunEnded t ∧ run k s = .next t := by
  induction k generalizing s with
  | zero => exact ⟨s, (stepsLeft_eq_zero_iff s).mp (Nat.le_zero.mp hk), rfl⟩
  | succ k ih =>
    by_cases hn : RunEnded s
    · exact ⟨s, hn, run_ended (k + 1) s hn⟩
    · obtain ⟨t, ht⟩ := hs.step_next
      rw [run_succ k s t ht]
      exact ih (hs.of_step ht) (by have := stepsLeft_step_lt hs.settled hn ht; omega)

/-- Settles O58: the run ends within the bound on the steps left, and an ended run stays as it is. -/
theorem everyRunEnds : Obligations.EveryRunEnds := by
  intro s hinv hset hwin
  obtain ⟨t, hend, hrun⟩ := Runnable.run_ends ⟨hinv, hset, hwin⟩ _ (stepsLeft_le s)
  exact ⟨t, hend, fun k => (run_add _ k s t hrun).trans (run_ended k t hend)⟩

end Sys2Proof.Machine
end
